-- ==== Sys2Proof/Word.lean ====
section
/-! DEFINITION. The words of the engine (spec/00_scope.md R12): widths only. -/

namespace Sys2Proof

/-- `u8`: a byte of a buffer, a sample of the waveform (R38, R74). -/
abbrev Byte := BitVec 8

/-- `u16`: a checksum, a block sequence number (R25, R22). -/
abbrev Half16 := BitVec 16

/-- `u16`: the duration of a pulse in microseconds (R13, R57). -/
abbrev Duration := BitVec 16

/-- `u32`: a command word (R55). -/
abbrev CmdWord := BitVec 32

/-- A sample of the port `CLKIN`: twelve 4-bit digits, from bit 47 down (R34). -/
abbrev Clock := BitVec 48

end Sys2Proof
end

