-- ==== Sys2Proof/Config.lean ====
section
/-! DEFINITION. What is fixed for the machine: the constants of spec/00_scope.md R10, the open parameters of R11
(a record, so that a claim can quantify over them), and the free values, constants with no body. -/

namespace Sys2Proof

namespace Config

/-- `FS`: samples per second (R10). -/
def sampleRate : Nat := 11025
/-- `T_LONG`: microseconds of the pulse of a 1 bit (R10, R91). -/
def tLong : Duration := 1000#16
/-- `T_SHORT`: microseconds of the pulse of a 0 bit (R10, R91, R170). -/
def tShort : Duration := 545#16
/-- `DC`: the offset around which the shape of a pulse is centred (R10, R89). Under 93 U1 a claim may use it only in a
hypothesis on `RISE` and `FALL`; no command reads it. -/
def dc : Nat := 129
/-- `AMP`: the amplitude of the shape of a pulse (R10, R89); as `dc`. -/
def amp : Nat := 1
/-- `NORM_EPS` (R10): the half-range below which `NORM` skips (45_normalizer.md R131), 0.1 as numerator and denominator. -/
def normEps : Nat × Nat := (1, 10)
/-- `FIRST_DATA_SEQ` (R10): the sequence number of the first data block. -/
def firstDataSeq : Nat := 1
/-- `NORM_CENTER` (R10). -/
def normCenter : Nat := 128
/-- `SYNC_BITS` (R10). -/
def syncBits : Nat := 80
/-- `FILE_GAP_BYTES` (R10). -/
def fileGapBytes : Nat := 614
/-- `IBG_AFTER_HEADER` (R10). -/
def gapAfterHeader : Nat := 100
/-- `IBG_AFTER_DATA` (R10). -/
def gapAfterData : Nat := 300
/-- `DATA_LEN` (R10). -/
def dataLen : Nat := 256
/-- `REC_LEN` (R10). -/
def recLen : Nat := 80
/-- `POLY_CCITT` (R10). -/
def polyCcitt : Half16 := 0x1021#16
/-- `INIT_CCITT` (R10). -/
def initCcitt : Half16 := 0xFFFF#16
/-- `POLY_KERMIT` (R10). -/
def polyKermit : Half16 := 0x8408#16
/-- `INIT_KERMIT` (R10). -/
def initKermit : Half16 := 0x0000#16
/-- The size in bytes of `NAME` (20_memory.md R37). -/
def nameSize : Nat := 256
/-- The size in bytes of `PB` (R37). -/
def pbSize : Nat := 256
/-- The size in bytes of `FB` (R37). -/
def fbSize : Nat := 262

/-- `RISE(h)` where no instantiation is given: exactly `h` bytes, nothing else is known of them (R89; 93 U1; log 4). -/
opaque rise : (h : Nat) → Vector Byte h
/-- `FALL(h)` where no instantiation is given (R89; 93 U1; log 4). -/
opaque fall : (h : Nat) → Vector Byte h
/-- The free value of the n-th sample of `CLKIN` that no draw fixes (R34, R111; log 2). -/
opaque freeClock : Nat → Clock
/-- What `CRC` holds at power-on: any value (R25; 93 U3; log 5). -/
opaque powerOnCrc : Half16

end Config

/-- The four buffers of bytes whose contents at power-on are unspecified (R29 to R32, R36). -/
inductive Buffer where
  | pm | name | pb | fb
  deriving DecidableEq, Repr

/-- What a byte of a buffer that nothing has written reads as: any value, per buffer and index (R36; 93 U4; log 6). -/
opaque Config.powerOnByte : Buffer → Nat → Byte

/-- `HALF_POLICY`: how an odd sample count is split in two (R11, R88). -/
inductive HalfPolicy where
  /-- Both halves `N div 2`, the default. -/
  | floor
  /-- Rising half `N div 2`, falling half `N - N div 2`. -/
  | keepTotal
  deriving DecidableEq, Repr

/-- `NORM_ROUND`: how a rescaled sample becomes an integer (R11, R134). -/
inductive NormRound where
  /-- `floor(q)`, the default. -/
  | floor
  /-- `floor(q + 1/2)`. -/
  | nearest
  deriving DecidableEq, Repr

/-- The open parameters of R11, each at its default (log 3). `riseTable` and `fallTable` instantiate the pulse shape for
the half-lengths they list (log 4); the defaults instantiate none. -/
structure Params where
  halfPolicy : HalfPolicy := .floor
  blockTrailGap : Nat := 100
  hdrSeq : Half16 := 0#16
  offRecType : Nat := 20
  offBlkMode : Nat := 21
  offBlkLen : Nat := 22
  offDate : Nat := 27
  offTime : Nat := 33
  offVolume : Nat := 39
  offSystem : Nat := 41
  flagFill : Byte := 0x20#8
  metaPerCopy : Bool := false
  normRound : NormRound := .floor
  /-- `SB_CAPACITY`: `none` is the unbounded buffer (R26). -/
  sbCapacity : Option Nat := none
  riseTable : List (Nat × List Byte) := []
  fallTable : List (Nat × List Byte) := []
  deriving DecidableEq, Repr

/-- Every open parameter at the default of R11. -/
def Params.default : Params := {}

end Sys2Proof
end

