-- ==== Sys2Proof/Machine/State.lean ====
section
/-! DEFINITION. The state of the engine and of its host as plain data (spec/10_state.md), the ways a step can stop, and
the state right after power-on reset (R36, R159). -/

namespace Sys2Proof.Machine

/-- The contents of a buffer: (index, byte) pairs, indices strictly rising; an index that is not listed holds no
value yet (log 6). -/
abbrev Memory := List Host.Cell

/-- The one canonical form of a buffer's contents: indices strictly rising. No entry can equal what an unlisted index
holds, which is no value. -/
abbrev Memory.wf (m : Memory) : Prop := m.Pairwise (fun x y => x.1 < y.1)

/-- The states of the sequencer, in the order of their codes (44_sequencer.md R118, R21). -/
inductive SeqState where
  | idle | fgap1 | hdr0 | hdr1 | ibgh | dat0 | dat1 | ibgd | ftr0 | ftr1 | fgap2 | done
  deriving DecidableEq, Repr

/-- One record of the diagnostic dump: the block header fields and the frame bytes (42_block_framer.md R105). -/
structure DumpRecord where
  tag : Byte
  seq : Half16
  copy : BitVec 1
  bytes : List Byte
  deriving DecidableEq, Repr

/-- The buffers a host writes (20_memory.md R37); it never writes `FB` or `SB` (70_reset_and_hazards.md R162). -/
inductive LoadSpace where
  | pm | name | pb
  deriving DecidableEq, Repr

/-- The buffers a host reads (20_memory.md R37). -/
inductive ReadSpace where
  | buffer (b : Buffer)
  | sb
  deriving DecidableEq, Repr

/-- One move of the host (70_reset_and_hazards.md R162; log 1). A command word is `write 0 w` (10_state.md R27). -/
inductive HostMove where
  /-- Write `v` to register `reg`. -/
  | write (reg : Nat) (v : BitVec 32)
  /-- Write one byte of a buffer. -/
  | load (space : LoadSpace) (index : Nat) (v : Byte)
  /-- Read register `reg`. -/
  | read (reg : Nat)
  /-- Read one byte of a buffer. -/
  | readByte (space : ReadSpace) (index : Nat)
  /-- Fix one more coming sample of `CLKIN` (R34; log 2). -/
  | clock (v : Clock)
  deriving DecidableEq, Repr

/-- Everything the spec gives the engine (10_state.md R14), the two ghost traces (R13, R35), and the model's own fields:
the environment's clock draws, the host's moves still to come, the value its last read got, the open parameters. -/
structure State where
  /-- `STATUS`, register 1: bit 0 `BUSY`, bit 1 `DONE`, bits 4:2 `ERR` (R23). -/
  status : BitVec 8
  /-- `CTRL`, register 2: bit 0 `CRCMODE`, bit 1 `DBG` (R24). -/
  ctrl : BitVec 8
  /-- `CRC`, register 3 (R25). -/
  crc : Half16
  /-- `PLEN`, register 4 (R17). -/
  plen : BitVec 32
  /-- `NAMELEN`, register 5 (R18). -/
  namelen : BitVec 8
  /-- `FTYPE`, register 6 (R19). -/
  ftype : BitVec 2
  /-- `SEQST`, register 8 (R21). -/
  seqst : SeqState
  /-- `BLK`, register 9 (R22). -/
  blk : Half16
  /-- `PM`, the program memory (R29). -/
  pm : Memory
  /-- `NAME`, the name buffer (R30). -/
  name : Memory
  /-- `PB`, the payload buffer (R31). -/
  pb : Memory
  /-- `FB`, the frame buffer (R32). -/
  fb : Memory
  /-- `SB`, the sample buffer (R33); its length is `SBLEN`, register 7 (R26; log 8). -/
  sb : List Byte
  /-- The ghost pulse trace `PT` (R13). -/
  pt : List Duration
  /-- The ghost debug trace `DT` (R35). -/
  dt : List DumpRecord
  /-- The coming samples of `CLKIN` that the environment has fixed, oldest first (R34; log 2). -/
  clk : List Clock
  /-- How many samples of `CLKIN` were free values so far (log 2). -/
  clkReads : Nat
  /-- The host's moves still to come, oldest first (R162; log 1). -/
  host : List HostMove
  /-- What the host's latest read returned (log 11). -/
  lastRead : Nat
  /-- The open parameters of 00_scope.md R11 (log 3); no step changes them. -/
  params : Params
  deriving DecidableEq, Repr

/-- The ways the machine is stuck. An error of the engine is none of these: it is a next state with `STATUS.ERR` set. -/
inductive Fault where
  /-- Raised by a command that would append beyond a finite `SB_CAPACITY` (93 U6: "stuck"; log 9). Safe. -/
  | sampleBufferFull
  /-- Raised by a host move that names an index the buffer does not have (20_memory.md R37; log 10). Safe. -/
  | noSuchIndex
  deriving DecidableEq, Repr

/-- No meaning for the instruction. -/
inductive Refusal where
  /-- Raised by `exec` alone, for a command without a meaning yet. Safe. -/
  | notModelled (mnemonic : String)
  deriving DecidableEq, Repr

/-- What a step answers. -/
abbrev Result := Host.Outcome State Fault Refusal

/-- The engine after power-on, its host with no move pending (10_state.md R36; 70_reset_and_hazards.md R159). -/
def State.reset : State where
  status := 0x00#8
  ctrl := 0x00#8
  crc := Config.powerOnCrc
  plen := 0#32
  namelen := 0#8
  ftype := 0#2
  seqst := .idle
  blk := 0#16
  pm := []
  name := []
  pb := []
  fb := []
  sb := []
  pt := []
  dt := []
  clk := []
  clkReads := 0
  host := []
  lastRead := 0
  params := Params.default

end Sys2Proof.Machine
end

