-- ==== Sys2Proof/Machine/Flags.lean ====
section
/-! DEFINITION. The fields of `STATUS` and `CTRL` (spec/10_state.md R23, R24) and the codes of the error causes and of the
sequencer's states. The engine has no arithmetic flag (R23). -/

namespace Sys2Proof.Machine

/-- The two checksum conventions (R24: 0 = Kermit, 1 = CCITT). -/
inductive CrcMode where
  | kermit | ccitt
  deriving DecidableEq, Repr

/-- `CTRL.CRCMODE` (R24). -/
def State.crcMode (s : State) : CrcMode := if s.ctrl.getLsbD 0 then .ccitt else .kermit

/-- `CTRL.DBG` (R24). -/
def State.dbg (s : State) : Bool := s.ctrl.getLsbD 1

/-- `STATUS.BUSY` (R23). -/
def State.busy (s : State) : Bool := s.status.getLsbD 0

/-- `STATUS.DONE` (R23). -/
def State.done (s : State) : Bool := s.status.getLsbD 1

/-- `STATUS.ERR` (R23). -/
def State.err (s : State) : BitVec 3 := s.status.extractLsb' 2 3

/-- `STATUS.DONE <- b`, the other bits kept. -/
def State.setDone (s : State) (b : Bool) : State :=
  { s with status := if b then s.status ||| 0x02#8 else s.status &&& 0xFD#8 }

/-- `STATUS.ERR <- e`, the other bits kept. -/
def State.setErr (s : State) (e : BitVec 3) : State :=
  { s with status := (s.status &&& 0xE3#8) ||| (e.setWidth 8 <<< 2) }

/-- The error causes (60_exceptions.md R140). -/
inductive ErrCause where
  | empty | length | illCmd | illArg
  deriving DecidableEq, Repr

/-- The code of an error cause in `STATUS.ERR` (R140). -/
def ErrCause.code : ErrCause → BitVec 3
  | .empty => 1#3
  | .length => 2#3
  | .illCmd => 3#3
  | .illArg => 4#3

/-- The code a read of `SEQST` returns (R21, R118). -/
def SeqState.code : SeqState → BitVec 4
  | .idle => 0#4
  | .fgap1 => 1#4
  | .hdr0 => 2#4
  | .hdr1 => 3#4
  | .ibgh => 4#4
  | .dat0 => 5#4
  | .dat1 => 6#4
  | .ibgd => 7#4
  | .ftr0 => 8#4
  | .ftr1 => 9#4
  | .fgap2 => 10#4
  | .done => 11#4

end Sys2Proof.Machine
end

