-- ==== Sys2Proof/Machine/Operands.lean ====
section
/-! DEFINITION. What an operand of a command or of a record stands for: block types (spec/30_encoding.md R58), file types
(R70, R71), clock digits (43_metadata.md R112), the program's block count (44_sequencer.md R119). -/

namespace Sys2Proof.Machine

/-- The type tag of a block: `'H'`, `'D'`, `'E'` (R58). The reserved code 3 never gets here. -/
def blockTag (t : BitVec 2) : Byte :=
  if t = 0#2 then 0x48#8 else if t = 1#2 then 0x44#8 else 0x45#8

/-- The payload length of a block (R58). -/
def payloadLen (t : BitVec 2) : Nat := if t = 1#2 then Config.dataLen else Config.recLen

/-- The high byte `v[15:8]`. -/
def hiByte (v : Half16) : Byte := v.extractLsb' 8 8

/-- The low byte `v[7:0]`. -/
def loByte (v : Half16) : Byte := v.extractLsb' 0 8

/-- The five type-flag bytes of a record, offsets 15 to 19 (R70); a byte the mapping does not name keeps the fill (R71). -/
def typeFlags (fill : Byte) (ft : BitVec 2) : List Byte :=
  if ft = 0#2 then [fill, 0xFF#8, 0xFF#8, fill, fill]
  else if ft = 1#2 then [fill, 0x00#8, 0x00#8, fill, fill]
  else if ft = 2#2 then [0x01#8, 0xFF#8, 0xFF#8, fill, fill]
  else [0x02#8, fill, fill, fill, fill]

/-- `dig(j)` as an ASCII byte, `0x30 + clk[47-4j : 44-4j]` for `j` = 0 .. 11 (R112). -/
def digitByte (clk : Clock) (j : Nat) : Byte := 0x30#8 + (clk.extractLsb' (44 - 4 * j) 4).setWidth 8

/-- `B`, the number of data blocks of the program (44_sequencer.md R119; exact, 70_reset_and_hazards.md R171 (c)). -/
def State.blockCount (s : State) : Nat := (s.plen.toNat + 255) / 256

end Sys2Proof.Machine
end

