-- ==== Sys2Proof/Machine/Ops.lean ====
section
/-! DEFINITION. The named operations over buffers and registers that the meanings share: byte access (spec/20_memory.md),
raising an error and the sticky refusal (60_exceptions.md R149, R150), the capacity of `SB`, a clock sample. -/

namespace Sys2Proof.Machine

/-- The byte a buffer holds at an index, if anything has been written there. -/
def Memory.get? : Memory → Nat → Option Byte
  | [], _ => none
  | (x, v) :: m, a => if x = a then some v else Memory.get? m a

/-- Write one byte, keeping the canonical form. -/
def Memory.write : Memory → Nat → Byte → Memory
  | [], a, b => [(a, b)]
  | (x, v) :: m, a, b =>
    if a < x then (a, b) :: (x, v) :: m
    else if a = x then (a, b) :: m
    else (x, v) :: Memory.write m a b

/-- Write bytes one after the other from an index on, each one access (R38). -/
def Memory.writeRun : Memory → Nat → List Byte → Memory
  | m, _, [] => m
  | m, a, b :: bs => Memory.writeRun (Memory.write m a b) (a + 1) bs

/-- The byte at an index of a buffer; an unwritten one reads as a free value (93 U4; log 6). -/
def Memory.read (which : Buffer) (m : Memory) (a : Nat) : Byte :=
  (m.get? a).getD (Config.powerOnByte which a)

/-- The `n` bytes from an index on. -/
def Memory.readRun (which : Buffer) (m : Memory) (a n : Nat) : List Byte :=
  (List.range n).map (fun i => m.read which (a + i))

/-- The contents of one of the four indexed buffers. -/
def State.buffer (s : State) : Buffer → Memory
  | .pm => s.pm
  | .name => s.name
  | .pb => s.pb
  | .fb => s.fb

/-- One byte of one of the four indexed buffers. -/
def State.readByte (s : State) (which : Buffer) (a : Nat) : Byte := (s.buffer which).read which a

/-- The `n` bytes from an index on of one of the four indexed buffers. -/
def State.readBytes (s : State) (which : Buffer) (a n : Nat) : List Byte := (s.buffer which).readRun which a n

/-- `SBLEN` (R26). -/
def State.sblen (s : State) : Nat := s.sb.length

/-- `raise E(…)`: nothing of the command happens; `STATUS.ERR` takes the code if it was 0 (60_exceptions.md R149). This is
the one way an error is entered, of a command as of the decoder. -/
def State.raise (s : State) (e : ErrCause) : State := if s.err = 0#3 then s.setErr e.code else s

/-- The end of an error: what `RESET` does to `STATUS` (R151, R130; 10_state.md R36; log 13). -/
def State.clearStatus (s : State) : State := { s with status := 0x00#8 }

/-- The sticky refusal: while `STATUS.ERR` is not 0 the command has no effect (R150). -/
def State.unlessError (s : State) (run : State → Result) : Result := if s.err = 0#3 then run s else .next s

/-- Whether `SB` is within the capacity (R11 `SB_CAPACITY`; log 9). -/
def State.withinCapacity (s : State) : Bool :=
  match s.params.sbCapacity with
  | none => true
  | some n => s.sb.length ≤ n

/-- The end of a command that appends to `SB`: stuck if a finite buffer has been overrun (93 U6; log 9). -/
def State.finish (s : State) : Result := if s.withinCapacity then .next s else .fault .sampleBufferFull

/-- One sample of `CLKIN`: the next draw the environment has fixed, a free value where it has fixed none (R111; log 2). -/
def State.clockSample (s : State) : Clock :=
  match s.clk with
  | [] => Config.freeClock s.clkReads
  | c :: _ => c

/-- The state after one sample of `CLKIN` (log 2). -/
def State.afterClockSample (s : State) : State :=
  match s.clk with
  | [] => { s with clkReads := s.clkReads + 1 }
  | _ :: cs => { s with clk := cs }

end Sys2Proof.Machine
end

