-- ==== Sys2Proof/Machine/Crc.lean ====
section
/-! DEFINITION. The CRC-16 generator (spec/40_crc.md). -/

namespace Sys2Proof.Machine

/-- `RoundC` (R76): the test is on bit 15 before the shift. -/
def roundCcitt (a : Half16) : Half16 := if a.getLsbD 15 then (a <<< 1) ^^^ Config.polyCcitt else a <<< 1

/-- `RoundK` (R77): the test is on bit 0 before the shift. -/
def roundKermit (a : Half16) : Half16 := if a.getLsbD 0 then (a >>> 1) ^^^ Config.polyKermit else a >>> 1

/-- `Upd` (R78): CCITT takes the byte into bits 15:8, Kermit into bits 7:0; then eight rounds. -/
def crcUpdate (mode : CrcMode) (a : Half16) (v : Byte) : Half16 :=
  match mode with
  | .ccitt => Nat.repeat roundCcitt 8 (a ^^^ (v.setWidth 16 <<< 8))
  | .kermit => Nat.repeat roundKermit 8 (a ^^^ v.setWidth 16)

/-- `Init` (R79). -/
def crcInit : CrcMode → Half16
  | .ccitt => Config.initCcitt
  | .kermit => Config.initKermit

/-- `Crc` (R79): the first byte first, no final exclusive-or, no reflection. -/
def crcOf (mode : CrcMode) (m : List Byte) : Half16 := m.foldl (crcUpdate mode) (crcInit mode)

/-- `CRCINIT` (R83). -/
def execCrcinit (s : State) : Result :=
  s.unlessError fun s => .next { s with crc := crcInit s.crcMode }

/-- `CRCBYTE v` (R84). -/
def execCrcbyte (v : Byte) (s : State) : Result :=
  s.unlessError fun s => .next { s with crc := crcUpdate s.crcMode s.crc v }

end Sys2Proof.Machine
end

