-- ==== Sys2Proof/Machine/Pulse.lean ====
section
/-! DEFINITION. The pulse encoder and bit-framer (spec/41_pulse.md). -/

namespace Sys2Proof.Machine

/-- `NSamples(d)` (R87): the exact product, divided rounding down. -/
def nSamples (d : Duration) : Nat := d.toNat * Config.sampleRate / 1000000

/-- The lengths of the rising and of the falling half (R88; log 15). -/
def halfLengths (policy : HalfPolicy) (d : Duration) : Nat × Nat :=
  match policy with
  | .floor => (nSamples d / 2, nSamples d / 2)
  | .keepTotal => (nSamples d / 2, nSamples d - nSamples d / 2)

/-- One instantiation of a half of the pulse shape, if the table lists one of the right length. -/
def shapeOf (table : List (Nat × List Byte)) (h : Nat) : Option (List Byte) :=
  (table.lookup h).filter (fun l => l.length == h)

/-- `RISE(h)`: exactly `h` bytes (R89; log 4). -/
def riseShape (p : Params) (h : Nat) : List Byte := (shapeOf p.riseTable h).getD (Config.rise h).toList

/-- `FALL(h)`: exactly `h` bytes (R89; log 4). -/
def fallShape (p : Params) (h : Nat) : List Byte := (shapeOf p.fallTable h).getD (Config.fall h).toList

/-- `PulseSamples(d)` (R90): the rising half, then the falling half (R42). -/
def pulseSamples (p : Params) (d : Duration) : List Byte :=
  riseShape p (halfLengths p.halfPolicy d).1 ++ fallShape p (halfLengths p.halfPolicy d).2

/-- `Render` (R90). -/
def render (p : Params) (ds : List Duration) : List Byte := ds.flatMap (pulseSamples p)

/-- `BitPulse` (R91). -/
def bitPulse (b : Bool) : Duration := if b then Config.tLong else Config.tShort

/-- The byte-frame of a byte: eight data bits, least significant first, and the stop bit 1 (30_encoding.md R65). -/
def byteBits (v : Byte) : List Bool := (List.range 8).map v.getLsbD ++ [true]

/-- The sync field: raw zero bits, no stop bits (R66, R95). -/
def syncField : List Bool := List.replicate Config.syncBits false

/-- The preamble: a raw 1, then bytes 0xFF and 0xAA (R66, R96). -/
def preamble : List Bool := true :: (byteBits 0xFF#8 ++ byteBits 0xAA#8)

/-- The postamble: bytes 0xAA and 0x00 (R66, R97). -/
def postamble : List Bool := byteBits 0xAA#8 ++ byteBits 0x00#8

/-- A gap of `n` bytes 0xFF (R66, R98, R99). -/
def gapBits (n : Nat) : List Bool := (List.replicate n 0xFF#8).flatMap byteBits

/-- Append pulses: their samples to `SB`, their durations to `PT` (R92, R100). -/
def State.emit (s : State) (ds : List Duration) : State :=
  { s with sb := s.sb ++ render s.params ds, pt := s.pt ++ ds }

/-- Append bits, each one pulse (R93). -/
def State.emitBits (s : State) (bs : List Bool) : State := s.emit (bs.map bitPulse)

/-- `PULSE d` (R92). -/
def execPulse (d : Duration) (s : State) : Result := s.unlessError fun s => (s.emit [d]).finish

/-- `BIT b` (R93). -/
def execBit (b : Bool) (s : State) : Result := s.unlessError fun s => (s.emitBits [b]).finish

/-- `BYTE v` (R94). -/
def execByte (v : Byte) (s : State) : Result := s.unlessError fun s => (s.emitBits (byteBits v)).finish

/-- `SYNC` (R95). -/
def execSync (s : State) : Result := s.unlessError fun s => (s.emitBits syncField).finish

/-- `PRE` (R96). -/
def execPre (s : State) : Result := s.unlessError fun s => (s.emitBits preamble).finish

/-- `POST` (R97). -/
def execPost (s : State) : Result := s.unlessError fun s => (s.emitBits postamble).finish

/-- `FGAP` (R98). -/
def execFgap (s : State) : Result :=
  s.unlessError fun s => (s.emitBits (gapBits Config.fileGapBytes)).finish

/-- `IBGAP n` (R99). -/
def execIbgap (n : BitVec 16) (s : State) : Result :=
  s.unlessError fun s => (s.emitBits (gapBits n.toNat)).finish

end Sys2Proof.Machine
end

