-- ==== Sys2Proof/Machine/Framer.lean ====
section
/-! DEFINITION. The cassette block framer (spec/42_block_framer.md). -/

namespace Sys2Proof.Machine

/-- The frame body: type tag, sequence number big-endian, copy index as the number 0 or 1, payload (30_encoding.md R67). -/
def frameBody (tag : Byte) (seq : Half16) (copy : BitVec 1) (payload : List Byte) : List Byte :=
  [tag, hiByte seq, loByte seq, copy.setWidth 8] ++ payload

/-- The frame: the frame body and its checksum, low byte first (R68; 20_memory.md R40; 40_crc.md R80). -/
def frameOf (mode : CrcMode) (body : List Byte) : List Byte :=
  body ++ [loByte (crcOf mode body), hiByte (crcOf mode body)]

/-- The bits of a physical block with its trailing gap (R69, R108). -/
def blockBits (trailGap : Nat) (frame : List Byte) : List Bool :=
  syncField ++ preamble ++ frame.flatMap byteBits ++ postamble ++ gapBits trailGap

/-- The payload of a block of type `t`: `PB[0 .. n-1]` (R103). -/
def State.payload (s : State) (t : BitVec 2) : List Byte := s.readBytes .pb 0 (payloadLen t)

/-- The frame body `WRBLK` builds. -/
def State.blockBody (s : State) (t : BitVec 2) (c : BitVec 1) (seq : Half16) : List Byte :=
  frameBody (blockTag t) seq c (s.payload t)

/-- The frame `WRBLK` builds. -/
def State.blockFrame (s : State) (t : BitVec 2) (c : BitVec 1) (seq : Half16) : List Byte :=
  frameOf s.crcMode (s.blockBody t c seq)

/-- Steps 1 and 2 of `WRBLK` and its dump: the frame into `FB`, the checksum into `CRC`, under `CTRL.DBG` a record
into `DT` (R103, R105). -/
def State.storeFrame (s : State) (t : BitVec 2) (c : BitVec 1) (seq : Half16) : State :=
  { s with
    fb := s.fb.writeRun 0 (s.blockFrame t c seq)
    crc := crcOf s.crcMode (s.blockBody t c seq)
    dt := if s.dbg then s.dt ++ [⟨blockTag t, seq, c, s.blockFrame t c seq⟩] else s.dt }

/-- `WRBLK` for a legal type, without its checks (R103). -/
def State.writeBlock (s : State) (t : BitVec 2) (c : BitVec 1) (seq : Half16) : State :=
  (s.storeFrame t c seq).emitBits (blockBits s.params.blockTrailGap (s.blockFrame t c seq))

/-- `WRBLK t, c, s` (R103). -/
def execWrblk (t : BitVec 2) (c : BitVec 1) (seq : Half16) (s : State) : Result :=
  s.unlessError fun s => if t = 3#2 then .next (s.raise .illArg) else (s.writeBlock t c seq).finish

end Sys2Proof.Machine
end

