-- ==== Sys2Proof/Machine/Metadata.lean ====
section
/-! DEFINITION. The fixed-record metadata builder (spec/43_metadata.md). -/

namespace Sys2Proof.Machine

/-- Write bytes into a record one after the other from an offset on; a byte past its end is dropped (log 16). -/
def putBytes : List Byte → Nat → List Byte → List Byte
  | rec, _, [] => rec
  | rec, off, b :: bs => putBytes (rec.set off b) (off + 1) bs

/-- `"HDR1"` (30_encoding.md R63). -/
def headerTag : List Byte := [0x48#8, 0x44#8, 0x52#8, 0x31#8]

/-- `"EOFD"` (R63). -/
def footerTag : List Byte := [0x45#8, 0x4F#8, 0x46#8, 0x44#8]

/-- `"  256"` (R63). -/
def blockLenField : List Byte := [0x20#8, 0x20#8, 0x32#8, 0x35#8, 0x36#8]

/-- `"01"` (R63). -/
def volumeField : List Byte := [0x30#8, 0x31#8]

/-- `"HX-20   "` (R63). -/
def systemField : List Byte := [0x48#8, 0x58#8, 0x2D#8, 0x32#8, 0x30#8, 0x20#8, 0x20#8, 0x20#8]

/-- `Record(tag4, name, ftype, clk)` (R113), the writes in its order; a name is cut to eight bytes (R110), and the
type-flag field is laid over its fill value (30_encoding.md R70, R71; log 16). -/
def recordOf (p : Params) (tag4 name : List Byte) (ft : BitVec 2) (clk : Clock) : List Byte :=
  let rec0 := List.replicate Config.recLen 0x20#8
  let rec1 := putBytes rec0 0 tag4
  let rec2 := putBytes rec1 4 (name.take 8)
  let rec3 := putBytes rec2 15 (typeFlags p.flagFill ft)
  let rec4 := putBytes rec3 p.offRecType [0x32#8]
  let rec5 := putBytes rec4 p.offBlkMode [0x53#8]
  let rec6 := putBytes rec5 p.offBlkLen blockLenField
  let rec7 := putBytes rec6 p.offDate ((List.range 6).map (digitByte clk))
  let rec8 := putBytes rec7 p.offTime ((List.range 6).map (fun j => digitByte clk (6 + j)))
  let rec9 := putBytes rec8 p.offVolume volumeField
  putBytes rec9 p.offSystem systemField

/-- The record a build gives now: `NAME`, `NAMELEN`, `FTYPE` and one clock sample (R109, R111). -/
def State.recordNow (s : State) (tag4 : List Byte) : List Byte :=
  recordOf s.params tag4 (s.readBytes .name 0 s.namelen.toNat) s.ftype s.clockSample

/-- `PB[0 .. 79] <- Record(…)`, one clock sample taken (R114, R115). -/
def State.buildRecord (s : State) (tag4 : List Byte) : State :=
  { s.afterClockSample with pb := s.pb.writeRun 0 (s.recordNow tag4) }

/-- `BLDHDR` (R114). -/
def execBldhdr (s : State) : Result := s.unlessError fun s => .next (s.buildRecord headerTag)

/-- `BLDFTR` (R115). -/
def execBldftr (s : State) : Result := s.unlessError fun s => .next (s.buildRecord footerTag)

end Sys2Proof.Machine
end

