-- ==== Sys2Proof/Machine/Normalizer.lean ====
section
/-! DEFINITION. The amplitude normalizer (spec/45_normalizer.md). -/

namespace Sys2Proof.Machine

/-- The least sample of a non-empty buffer, its first sample given apart (R135). -/
def leastSample (x : Byte) (xs : List Byte) : Nat := xs.foldl (fun m v => min m v.toNat) x.toNat

/-- The greatest sample of a non-empty buffer (R135). -/
def greatestSample (x : Byte) (xs : List Byte) : Nat := xs.foldl (fun m v => max m v.toNat) x.toNat

/-- `den · q` of R134, where `den = mx - mn`: the exact rational `q = 128 + (2s - mx - mn)·a/(mx - mn)`. -/
def rescaleNum (mn mx a s : Nat) : Int :=
  Config.normCenter * ((mx : Int) - mn) + (2 * (s : Int) - mx - mn) * a

/-- `min(255, max(0, q))` of R134, again times `den`. -/
def clampNum (den num : Int) : Int := min (255 * den) (max 0 num)

/-- `NORM_ROUND` of the rational `num/den`, `den` positive (R134). -/
def roundQuotient (r : NormRound) (num den : Int) : Int :=
  match r with
  | .floor => num / den
  | .nearest => (2 * num + den) / (2 * den)

/-- `Resc(s, mn, mx, a)` (R134). -/
def rescale (r : NormRound) (mn mx a : Nat) (s : Byte) : Byte :=
  BitVec.ofInt 8 (roundQuotient r (clampNum ((mx : Int) - mn) (rescaleNum mn mx a s.toNat)) ((mx : Int) - mn))

/-- The skip test of R131, "the current half-range (max−min)/2 is below a near-zero threshold (0.1)", multiplied out; it holds
exactly if the two are equal (R132). -/
def nearlyFlat (mn mx : Nat) : Bool := (mx - mn) * Config.normEps.2 < 2 * Config.normEps.1

/-- The samples after `normalize(buffer, targetAmplitude)`: an empty or a flat buffer is left alone (R131, R132, R135). -/
def normalizeSamples (r : NormRound) (a : Nat) (sb : List Byte) : List Byte :=
  match sb with
  | [] => []
  | x :: xs =>
    let mn := leastSample x xs
    let mx := greatestSample x xs
    if nearlyFlat mn mx then sb else sb.map (rescale r mn mx a)

/-- `NORM a` (R135). -/
def execNorm (a : Byte) (s : State) : Result :=
  s.unlessError fun s => .next { s with sb := normalizeSamples s.params.normRound a.toNat s.sb }

end Sys2Proof.Machine
end

