-- ==== Sys2Proof/Machine/Sequencer.lean ====
section
/-! DEFINITION. The tape sequencer (spec/44_sequencer.md): `RESET`, `ENCODE` as one big step (R124), and the small steps of
the state machine (R118, R119), which reach the same end state (00_scope.md R9). -/

namespace Sys2Proof.Machine

/-- `RESET`'s effect (R130). -/
def State.clear (s : State) : State :=
  { s.clearStatus with sb := [], pt := [], seqst := .idle, blk := 0#16 }

/-- `RESET` (R130), never refused by the sticky error (60_exceptions.md R150). -/
def execReset (s : State) : Result := .next s.clear

/-- `Chunk(k)` (R120): 256 bytes of the program, zero-padded past `PLEN`. -/
def State.chunk (s : State) (k : Nat) : List Byte :=
  (List.range 256).map fun i =>
    if 256 * (k - 1) + i < s.plen.toNat then s.readByte .pm (256 * (k - 1) + i) else 0x00#8

/-- Load chunk `k` into `PB` (R120). -/
def State.loadChunk (s : State) (k : Nat) : State := { s with pb := s.pb.writeRun 0 (s.chunk k) }

/-- Build a record again before copy 1 if `META_PER_COPY` says so (R123; log 14). -/
def State.rebuildRecord (s : State) (tag4 : List Byte) : State :=
  if s.params.metaPerCopy then s.buildRecord tag4 else s

/-- `SEQST <- q`. -/
def State.goto (s : State) (q : SeqState) : State := { s with seqst := q }

/-- `BLK <- v`. -/
def State.setBlk (s : State) (v : Half16) : State := { s with blk := v }

/-- The entry of an accepted `ENCODE` (R119, R124). -/
def State.encodeStart (s : State) : State := ((s.setDone false).goto .fgap1).setBlk s.params.hdrSeq

/-- The first file gap, the header pair and its gap (R124). -/
def State.encodeHeader (s : State) : State :=
  let s := (s.emitBits (gapBits Config.fileGapBytes)).goto .hdr0
  let s := ((s.buildRecord headerTag).writeBlock 0#2 0#1 s.params.hdrSeq).goto .hdr1
  let s := ((s.rebuildRecord headerTag).writeBlock 0#2 1#1 s.params.hdrSeq).goto .ibgh
  (s.emitBits (gapBits Config.gapAfterHeader)).goto .dat0

/-- The pair of data blocks of chunk `k` of `b` and its gap (R124). -/
def State.encodeChunk (s : State) (b k : Nat) : State :=
  let s := (s.setBlk (BitVec.ofNat 16 k)).loadChunk k
  let s := (s.writeBlock 1#2 0#1 (BitVec.ofNat 16 k)).goto .dat1
  let s := (s.writeBlock 1#2 1#1 (BitVec.ofNat 16 k)).goto .ibgd
  (s.emitBits (gapBits Config.gapAfterData)).goto (if k < b then .dat0 else .ftr0)

/-- The first `n` of `b` chunks, in order, numbered from `FIRST_DATA_SEQ` on (R120, R124). -/
def State.encodeChunks (s : State) (b : Nat) : Nat → State
  | 0 => s
  | n + 1 => (s.encodeChunks b n).encodeChunk b (n + Config.firstDataSeq)

/-- The footer pair, the second file gap and the end (R122, R124). -/
def State.encodeFooter (s : State) (b : Nat) : State :=
  let seq := BitVec.ofNat 16 (b + 1)
  let s := ((s.setBlk seq).buildRecord footerTag |>.writeBlock 2#2 0#1 seq).goto .ftr1
  let s := ((s.rebuildRecord footerTag).writeBlock 2#2 1#1 seq).goto .fgap2
  ((s.emitBits (gapBits Config.fileGapBytes)).goto .done).setDone true

/-- The whole file, once the checks have passed (R124). -/
def State.encodeFile (s : State) : State :=
  (s.encodeStart.encodeHeader.encodeChunks s.blockCount s.blockCount).encodeFooter s.blockCount

/-- `ENCODE` (R124): both checks come before any write. -/
def execEncode (s : State) : Result :=
  s.unlessError fun s =>
    if s.plen = 0#32 then .next (s.raise .empty)
    else if 65535 < s.blockCount + 1 then .next (s.raise .length)
    else s.encodeFile.finish

/-- One arrow of the state machine from the state the sequencer is in (R118, R119); `IDLE` and `DONE` have none of their
own, they are left by `ENCODE`. -/
def State.seqStep (s : State) : State :=
  match s.seqst with
  | .idle => s
  | .fgap1 => (s.emitBits (gapBits Config.fileGapBytes)).goto .hdr0
  | .hdr0 => ((s.buildRecord headerTag).writeBlock 0#2 0#1 s.params.hdrSeq).goto .hdr1
  | .hdr1 => ((s.rebuildRecord headerTag).writeBlock 0#2 1#1 s.params.hdrSeq).goto .ibgh
  | .ibgh => ((s.emitBits (gapBits Config.gapAfterHeader)).goto .dat0).setBlk (BitVec.ofNat 16 Config.firstDataSeq)
  | .dat0 => ((s.loadChunk s.blk.toNat).writeBlock 1#2 0#1 s.blk).goto .dat1
  | .dat1 => (s.writeBlock 1#2 1#1 s.blk).goto .ibgd
  | .ibgd =>
    let s' := s.emitBits (gapBits Config.gapAfterData)
    if s.blk.toNat < s.blockCount then (s'.goto .dat0).setBlk (s.blk + 1#16)
    else (s'.goto .ftr0).setBlk (BitVec.ofNat 16 (s.blockCount + 1))
  | .ftr0 =>
    ((s.buildRecord footerTag).writeBlock 2#2 0#1 (BitVec.ofNat 16 (s.blockCount + 1))).goto .ftr1
  | .ftr1 =>
    ((s.rebuildRecord footerTag).writeBlock 2#2 1#1 (BitVec.ofNat 16 (s.blockCount + 1))).goto .fgap2
  | .fgap2 => ((s.emitBits (gapBits Config.fileGapBytes)).goto .done).setDone true
  | .done => s

end Sys2Proof.Machine
end

