-- ==== Sys2Proof/Syntax.lean ====
section
/-! DEFINITION. The sixteen commands of spec/30_encoding.md R56, one constructor per row of
spec/opcode_table.json, operands as R57 gives them. -/

namespace Sys2Proof

/-- The command set (R56). Operands that are not in the word come from the registers and buffers of State. -/
inductive Instr where
  /-- `RESET` (R130). -/
  | reset
  /-- `CRCINIT` (R83). -/
  | crcinit
  /-- `CRCBYTE v` (R84). -/
  | crcbyte (v : Byte)
  /-- `PULSE d`, `d` in microseconds (R92). -/
  | pulse (d : Duration)
  /-- `BIT b` (R93). -/
  | bit (b : Bool)
  /-- `BYTE v` (R94). -/
  | byte (v : Byte)
  /-- `SYNC` (R95). -/
  | sync
  /-- `PRE` (R96). -/
  | pre
  /-- `POST` (R97). -/
  | post
  /-- `FGAP` (R98). -/
  | fgap
  /-- `IBGAP n`, `n` a count of bytes (R99). -/
  | ibgap (n : BitVec 16)
  /-- `WRBLK t, c, s`: block type code, copy index, sequence number (R58, R103). -/
  | wrblk (t : BitVec 2) (c : BitVec 1) (s : Half16)
  /-- `BLDHDR` (R114). -/
  | bldhdr
  /-- `BLDFTR` (R115). -/
  | bldftr
  /-- `ENCODE` (R124). -/
  | encode
  /-- `NORM a`, `a` the target amplitude (R135). -/
  | norm (a : Byte)
  deriving DecidableEq, Repr

end Sys2Proof
end

