-- ==== Sys2Proof/Machine/Dispatch.lean ====
section
/-! DEFINITION. What each command does: one arm per constructor of Instr. -/

namespace Sys2Proof.Machine

def exec (i : Instr) (s : State) : Host.Outcome State Fault Refusal :=
  match i with
  | .reset => Sys2Proof.Machine.execReset s
  | .crcinit => Sys2Proof.Machine.execCrcinit s
  | .crcbyte v => Sys2Proof.Machine.execCrcbyte v s
  | .pulse d => Sys2Proof.Machine.execPulse d s
  | .bit b => Sys2Proof.Machine.execBit b s
  | .byte v => Sys2Proof.Machine.execByte v s
  | .sync => Sys2Proof.Machine.execSync s
  | .pre => Sys2Proof.Machine.execPre s
  | .post => Sys2Proof.Machine.execPost s
  | .fgap => Sys2Proof.Machine.execFgap s
  | .ibgap n => Sys2Proof.Machine.execIbgap n s
  | .wrblk t c q => Sys2Proof.Machine.execWrblk t c q s
  | .bldhdr => Sys2Proof.Machine.execBldhdr s
  | .bldftr => Sys2Proof.Machine.execBldftr s
  | .encode => Sys2Proof.Machine.execEncode s
  | .norm a => Sys2Proof.Machine.execNorm a s

end Sys2Proof.Machine
end

