-- ==== Sys2Proof/WellFormed.lean ====
section
/-! DEFINITION. Which commands have a legal encoding (spec/30_encoding.md R59). -/

namespace Sys2Proof

/-- The one operand value that R58 reserves is the block type 3 of `WRBLK`; every other operand value is legal (R57, R146). -/
def Instr.WellFormed : Instr → Bool
  | .wrblk t _ _ => t != 3#2
  | .reset => true
  | .crcinit => true
  | .crcbyte _ => true
  | .pulse _ => true
  | .bit _ => true
  | .byte _ => true
  | .sync => true
  | .pre => true
  | .post => true
  | .fgap => true
  | .ibgap _ => true
  | .bldhdr => true
  | .bldftr => true
  | .encode => true
  | .norm _ => true

end Sys2Proof
end

