-- ==== Sys2Proof/Decode.lean ====
section
/-! DEFINITION. The command word (spec/30_encoding.md R55, R56, R59): a total decoder that rejects by name, then the
encoder written from the same table. -/

namespace Sys2Proof

/-- The two verdicts on an illegal word (R59). -/
inductive DecodeError where
  /-- The opcode is none of the sixteen: `E_ILLCMD`. -/
  | illCmd
  /-- A reserved bit of `arg` is set, or the block type is 3: `E_ILLARG`. -/
  | illArg
  deriving DecidableEq, Repr

/-- The opcode field `w[31:24]` (R55). -/
def opField (w : CmdWord) : BitVec 8 := w.extractLsb' 24 8

/-- The operand field `w[23:0]` (R55). -/
def argField (w : CmdWord) : BitVec 24 := w.extractLsb' 0 24

/-- One row of the table of R56: an opcode, the bits of `arg` that its operands take, and the command they make. -/
structure OpcodeRow where
  opcode : BitVec 8
  operandBits : BitVec 24
  command : BitVec 24 → Instr

/-- The command set (R56). -/
def opcodeRows : List OpcodeRow := [
  ⟨0x01#8, 0x000000#24, fun _ => .reset⟩,
  ⟨0x10#8, 0x000000#24, fun _ => .crcinit⟩,
  ⟨0x11#8, 0x0000FF#24, fun arg => .crcbyte (arg.extractLsb' 0 8)⟩,
  ⟨0x20#8, 0x00FFFF#24, fun arg => .pulse (arg.extractLsb' 0 16)⟩,
  ⟨0x21#8, 0x000001#24, fun arg => .bit (arg.getLsbD 0)⟩,
  ⟨0x22#8, 0x0000FF#24, fun arg => .byte (arg.extractLsb' 0 8)⟩,
  ⟨0x23#8, 0x000000#24, fun _ => .sync⟩,
  ⟨0x24#8, 0x000000#24, fun _ => .pre⟩,
  ⟨0x25#8, 0x000000#24, fun _ => .post⟩,
  ⟨0x26#8, 0x000000#24, fun _ => .fgap⟩,
  ⟨0x27#8, 0x00FFFF#24, fun arg => .ibgap (arg.extractLsb' 0 16)⟩,
  ⟨0x30#8, 0x07FFFF#24, fun arg => .wrblk (arg.extractLsb' 17 2) (arg.extractLsb' 16 1) (arg.extractLsb' 0 16)⟩,
  ⟨0x40#8, 0x000000#24, fun _ => .bldhdr⟩,
  ⟨0x41#8, 0x000000#24, fun _ => .bldftr⟩,
  ⟨0x50#8, 0x000000#24, fun _ => .encode⟩,
  ⟨0x60#8, 0x0000FF#24, fun arg => .norm (arg.extractLsb' 0 8)⟩]

/-- The row of an opcode, if it is one of the sixteen. -/
def rowOf (op : BitVec 8) : Option OpcodeRow := opcodeRows.find? (fun r => r.opcode == op)

/-- What the operand field makes of a row: refused if a bit outside the operands is set (R59 (b)) or if the command is not
legal, which is `WRBLK` with type 3 (R59 (c)). -/
def readRow (r : OpcodeRow) (arg : BitVec 24) : Except DecodeError Instr :=
  if arg &&& ~~~r.operandBits = 0#24 ∧ (r.command arg).WellFormed = true then .ok (r.command arg) else .error .illArg

/-- The decoder: every word is a command or one of the two verdicts (R59). -/
def decode (w : CmdWord) : Except DecodeError Instr :=
  match rowOf (opField w) with
  | some r => readRow r (argField w)
  | none => .error .illCmd

/-- The word of a row of spec/opcode_table.json: its `nbits` bits, every higher bit zero. -/
def tableWord (nbits w : Nat) : CmdWord := BitVec.ofNat 32 (w % 2 ^ nbits)

/-- The command the decoder reads from an instruction whose bits are `w`. -/
def decodeTableWord (nbits w : Nat) : Option Instr :=
  match decode (tableWord nbits w) with
  | .ok i => some i
  | .error _ => none

/-- The opcode of a command (R56). -/
def opcodeOf : Instr → BitVec 8
  | .reset => 0x01#8
  | .crcinit => 0x10#8
  | .crcbyte _ => 0x11#8
  | .pulse _ => 0x20#8
  | .bit _ => 0x21#8
  | .byte _ => 0x22#8
  | .sync => 0x23#8
  | .pre => 0x24#8
  | .post => 0x25#8
  | .fgap => 0x26#8
  | .ibgap _ => 0x27#8
  | .wrblk _ _ _ => 0x30#8
  | .bldhdr => 0x40#8
  | .bldftr => 0x41#8
  | .encode => 0x50#8
  | .norm _ => 0x60#8

/-- The operand field of a command, reserved bits zero (R55, R56). -/
def operandsOf : Instr → BitVec 24
  | .crcbyte v => v.setWidth 24
  | .pulse d => d.setWidth 24
  | .bit b => (BitVec.ofBool b).setWidth 24
  | .byte v => v.setWidth 24
  | .ibgap n => n.setWidth 24
  | .wrblk t c s => (t.setWidth 24 <<< 17) ||| (c.setWidth 24 <<< 16) ||| s.setWidth 24
  | .norm a => a.setWidth 24
  | .reset => 0#24
  | .crcinit => 0#24
  | .sync => 0#24
  | .pre => 0#24
  | .post => 0#24
  | .fgap => 0#24
  | .bldhdr => 0#24
  | .bldftr => 0#24
  | .encode => 0#24

/-- The command word of a command (R55). -/
def encode (i : Instr) : CmdWord := ((opcodeOf i).setWidth 32 <<< 24) ||| (operandsOf i).setWidth 32

end Sys2Proof
end

