-- ==== Sys2Proof/Machine/HostPort.lean ====
section
/-! DEFINITION. The host's side of the engine: register and buffer accesses, clock draws, and how the next command word is
taken (spec/10_state.md R15, 20_memory.md R37, 70_reset_and_hazards.md R162). -/

namespace Sys2Proof.Machine

/-- The state with the host's moves still to come replaced. -/
def State.withMoves (s : State) (moves : List HostMove) : State := { s with host := moves }

/-- What a host read of a register returns (10_state.md R15): 0 for `CMD` and for a register that does not exist; reserved
bits read 0 (R23, R24). -/
def State.readReg (s : State) (reg : Nat) : Nat :=
  match reg with
  | 1 => (s.status &&& 0x1F#8).toNat
  | 2 => (s.ctrl &&& 0x03#8).toNat
  | 3 => s.crc.toNat
  | 4 => s.plen.toNat
  | 5 => s.namelen.toNat
  | 6 => s.ftype.toNat
  | 7 => s.sblen
  | 8 => s.seqst.code.toNat
  | 9 => s.blk.toNat
  | _ => 0

/-- A host write of a register other than `CMD` (R15): ignored where the register is read-only or does not exist; bits
above the register's width and reserved bits are ignored (R19, R24; log 12). -/
def State.writeReg (s : State) (reg : Nat) (v : BitVec 32) : State :=
  match reg with
  | 2 => { s with ctrl := v.setWidth 8 &&& 0x03#8 }
  | 4 => { s with plen := v }
  | 5 => { s with namelen := v.setWidth 8 }
  | 6 => { s with ftype := v.setWidth 2 }
  | _ => s

/-- Whether a buffer has an index (20_memory.md R37; `PM` below `PLEN` or not, log 10). -/
def hasIndex : Buffer → Nat → Bool
  | .pm, _ => true
  | .name, i => i < Config.nameSize
  | .pb, i => i < Config.pbSize
  | .fb, i => i < Config.fbSize

/-- A host write of one byte of a buffer (R37). -/
def State.hostLoad (s : State) (space : LoadSpace) (i : Nat) (v : Byte) : Result :=
  match space with
  | .pm => .next { s with pm := s.pm.write i v }
  | .name => if hasIndex .name i then .next { s with name := s.name.write i v } else .fault .noSuchIndex
  | .pb => if hasIndex .pb i then .next { s with pb := s.pb.write i v } else .fault .noSuchIndex

/-- The byte a host read of a buffer returns, if the index exists (R37; `SB` has the indices below `SBLEN`, R33). -/
def State.hostByte (s : State) (space : ReadSpace) (i : Nat) : Option Byte :=
  match space with
  | .buffer b => if hasIndex b i then some (s.readByte b i) else none
  | .sb => s.sb[i]?

/-- A host read of one byte of a buffer: no side effect (20_memory.md R46) but on what the host holds (log 11). -/
def State.hostReadByte (s : State) (space : ReadSpace) (i : Nat) : Result :=
  match s.hostByte space i with
  | some v => .next { s with lastRead := v.toNat }
  | none => .fault .noSuchIndex

/-- A move of the host that is no command word. -/
def State.hostMove (s : State) : HostMove → Result
  | .write reg v => .next (s.writeReg reg v)
  | .load space i v => s.hostLoad space i v
  | .read reg => .next { s with lastRead := s.readReg reg }
  | .readByte space i => s.hostReadByte space i
  | .clock v => .next { s with clk := s.clk ++ [v] }

/-- The command word the host writes to `CMD` next, if that is its next move, and the state with the move made (R27). -/
def State.nextCommand (s : State) : Option (CmdWord × State) :=
  match s.host with
  | .write 0 w :: rest => some (w, s.withMoves rest)
  | _ => none

/-- The host's next move when it is no command word; with none pending the engine idles (60_exceptions.md R158; log 1). -/
def State.hostTurn (s : State) : Result :=
  match s.host with
  | [] => .next s
  | m :: rest => (s.withMoves rest).hostMove m

/-- The error cause of a verdict of the decoder (R59, 60_exceptions.md R143). -/
def causeOf : DecodeError → ErrCause
  | .illCmd => .illCmd
  | .illArg => .illArg

/-- An illegal command word: the error is raised, unless one is already held (R148, R150). -/
def State.illegalWord (s : State) (e : DecodeError) : Result := .next (s.raise (causeOf e))

end Sys2Proof.Machine
end

