-- ==== Sys2Proof/Machine/Step.lean ====
section
/-! DEFINITION. One step: the host's next move, and if it is a command word, the whole command (spec/00_scope.md R7, R9). -/

namespace Sys2Proof.Machine

/-- One step of the machine. -/
def step (s : State) : Host.Outcome State Fault Refusal :=
  match s.nextCommand with
  | some (w, s') =>
    match decode w with
    | .ok i => exec i s'
    | .error e => s'.illegalWord e
  | none => s.hostTurn

/-- The state in which the host's very next move writes the given command word to `CMD` (log 1). -/
def State.withFetchWord (s : State) (nbits w : Nat) : State :=
  s.withMoves (.write 0 (tableWord nbits w) :: s.host)

end Sys2Proof.Machine
end

