-- ==== Sys2Proof/Safety.lean ====
section
/-! DEFINITION. The terms in which claims are stated: legal states, the words the encoding table admits, what a refusal may
change, what each command appends, the layout of a record and of a file as the spec's tables give them. -/

namespace Sys2Proof

/-! ### The encoding table -/

/-- The sixteen opcodes (30_encoding.md R56). -/
def legalOpcodes : List (BitVec 8) :=
  [0x01#8, 0x10#8, 0x11#8, 0x20#8, 0x21#8, 0x22#8, 0x23#8, 0x24#8, 0x25#8, 0x26#8, 0x27#8, 0x30#8, 0x40#8, 0x41#8,
   0x50#8, 0x60#8]

/-- The bits of `arg` that an opcode's operands take (R56). -/
def operandBits (op : BitVec 8) : BitVec 24 :=
  if op = 0x11#8 ∨ op = 0x22#8 ∨ op = 0x60#8 then 0x0000FF#24
  else if op = 0x20#8 ∨ op = 0x27#8 then 0x00FFFF#24
  else if op = 0x21#8 then 0x000001#24
  else if op = 0x30#8 then 0x07FFFF#24
  else 0x000000#24

/-- A legal opcode whose `arg` is refused: a reserved bit set, or `WRBLK` with type 3 (R59 (b), (c)). -/
def illegalArgument (w : CmdWord) : Prop :=
  argField w &&& ~~~operandBits (opField w) ≠ 0#24 ∨ (opField w = 0x30#8 ∧ (argField w).extractLsb' 17 2 = 3#2)

/-! ### The parameters a model may constrain -/

/-- The fields of a record whose offsets are parameters: (offset, length) (R72). -/
def Params.fields (p : Params) : List (Nat × Nat) :=
  [(p.offRecType, 1), (p.offBlkMode, 1), (p.offBlkLen, 5), (p.offDate, 6), (p.offTime, 6), (p.offVolume, 2),
   (p.offSystem, 8)]

/-- R72's constraints: the fields overlap neither each other nor offsets 0 to 19, and each lies within 0 to 79. -/
abbrev Params.OffsetsOk (p : Params) : Prop :=
  (∀ f ∈ p.fields, 20 ≤ f.1 ∧ f.1 + f.2 ≤ 80) ∧ p.fields.Pairwise (fun f g => f.1 + f.2 ≤ g.1 ∨ g.1 + g.2 ≤ f.1)

namespace Machine

/-! ### Legal states -/

/-- Every buffer in its canonical form and within its size (20_memory.md R37, R47). -/
abbrev State.MemoryOk (s : State) : Prop :=
  s.pm.wf ∧ s.name.wf ∧ s.pb.wf ∧ s.fb.wf ∧
  (∀ e ∈ s.name, e.1 < 256) ∧ (∀ e ∈ s.pb, e.1 < 256) ∧ (∀ e ∈ s.fb, e.1 < 262)

/-- `STATUS` and `CTRL` hold nothing the spec does not produce: `BUSY` 0 between commands, an error code of R140, reserved
bits 0 (10_state.md R23, R24; 93 U5). -/
abbrev State.StatusOk (s : State) : Prop :=
  s.busy = false ∧ s.err.toNat ≤ 4 ∧ s.status.extractLsb' 5 3 = 0#3 ∧ s.ctrl.extractLsb' 2 6 = 0#6

/-- Between commands the sequencer is at `IDLE`, with `DONE` 0 and `BLK` 0, or at `DONE` with `DONE` 1
(10_state.md R21; 44_sequencer.md R129, R130). -/
abbrev State.SequencerOk (s : State) : Prop :=
  (s.seqst = .idle ∧ s.done = false ∧ s.blk = 0#16) ∨ (s.seqst = .done ∧ s.done = true)

/-- `SB` is within the capacity, where a finite one is assumed (00_scope.md R11; 93 U6). -/
abbrev State.CapacityOk (s : State) : Prop := ∀ n, s.params.sbCapacity = some n → s.sb.length ≤ n

/-- The samples of the pulses `ds` fit behind those already in `SB`. -/
abbrev State.Fits (s : State) (ds : List Duration) : Prop :=
  ∀ n, s.params.sbCapacity = some n → s.sb.length + (render s.params ds).length ≤ n

/-- From `s` to `t` nothing has changed but `STATUS.ERR`, which is `code` (60_exceptions.md R149). -/
def OnlyErr (s t : State) (code : BitVec 3) : Prop :=
  t.err = code ∧ t.status &&& 0xE3#8 = s.status &&& 0xE3#8 ∧ t = { s with status := t.status }

/-! ### What the commands append -/

/-- The durations of a sequence of bits (41_pulse.md R91). -/
def durations (bs : List Bool) : List Duration := bs.map (fun b => if b then 1000#16 else 545#16)

/-- The bits of a byte-frame (30_encoding.md R65). -/
def frameBits (v : Byte) : List Bool :=
  [v.getLsbD 0, v.getLsbD 1, v.getLsbD 2, v.getLsbD 3, v.getLsbD 4, v.getLsbD 5, v.getLsbD 6, v.getLsbD 7, true]

/-- A run of `n` bits 1 (30_encoding.md R66: gaps are bytes 0xFF). -/
def ones (n : Nat) : List Bool := List.replicate n true

/-- The pulses each command of 41_pulse.md appends, as the table of 30_encoding.md R66 writes them out. -/
def pulsesOf : Instr → Option (List Duration)
  | .pulse d => some [d]
  | .bit b => some (durations [b])
  | .byte v => some (durations (frameBits v))
  | .sync => some (durations (List.replicate 80 false))
  | .pre => some (durations (ones 10 ++ [false, true, false, true, false, true, false, true, true]))
  | .post => some (durations
      [false, true, false, true, false, true, false, true, true, false, false, false, false, false, false, false, false, true])
  | .fgap => some (durations (ones 5526))
  | .ibgap n => some (durations (ones (9 * n.toNat)))
  | .reset => none
  | .crcinit => none
  | .crcbyte _ => none
  | .wrblk _ _ _ => none
  | .bldhdr => none
  | .bldftr => none
  | .encode => none
  | .norm _ => none

/-- The number of 1 bits of a byte (41_pulse.md R94). -/
def popCount (v : Byte) : Nat := ((List.range 8).map v.getLsbD).count true

/-- The table of 41_pulse.md R101: long pulses, short pulses. -/
def longShort : Instr → Option (Nat × Nat)
  | .bit true => some (1, 0)
  | .bit false => some (0, 1)
  | .byte v => some (popCount v + 1, 8 - popCount v)
  | .sync => some (0, 80)
  | .pre => some (15, 4)
  | .post => some (6, 12)
  | .fgap => some (5526, 0)
  | .ibgap n => some (9 * n.toNat, 0)
  | .pulse _ => none
  | .reset => none
  | .crcinit => none
  | .crcbyte _ => none
  | .wrblk _ _ _ => none
  | .bldhdr => none
  | .bldftr => none
  | .encode => none
  | .norm _ => none

/-- The bits of a physical block with the given frame, its trailing gap of `g` bytes included (42_block_framer.md R108). -/
def onMedium (g : Nat) (frame : List Byte) : List Bool :=
  List.replicate 80 false ++ [true] ++ frameBits 0xFF#8 ++ frameBits 0xAA#8 ++ frame.flatMap frameBits ++
    frameBits 0xAA#8 ++ frameBits 0x00#8 ++ ones (9 * g)

/-- The body `[tag, s[15:8], s[7:0], c] ++ payload` of a frame (30_encoding.md R67). -/
def bodyBytes (tag : Byte) (q : Half16) (c : BitVec 1) (payload : List Byte) : List Byte :=
  tag :: q.extractLsb' 8 8 :: q.extractLsb' 0 8 :: c.setWidth 8 :: payload

/-- A body and its checksum `k` as `[k[7:0], k[15:8]]` (30_encoding.md R68). -/
def withChecksum (mode : CrcMode) (body : List Byte) : List Byte :=
  body ++ [(crcOf mode body).extractLsb' 0 8, (crcOf mode body).extractLsb' 8 8]

/-- The frame of a block. -/
def frameBytes (mode : CrcMode) (tag : Byte) (q : Half16) (c : BitVec 1) (payload : List Byte) : List Byte :=
  withChecksum mode (bodyBytes tag q c payload)

/-- The two copies of a logical block on the medium, each with its trailing gap; the payload of each copy is given. -/
def pairOnMedium (s : State) (tag : Byte) (q : Half16) (payload : Nat → List Byte) : List Bool :=
  onMedium s.params.blockTrailGap (frameBytes s.crcMode tag q 0#1 (payload 0)) ++
    onMedium s.params.blockTrailGap (frameBytes s.crcMode tag q 1#1 (payload 1))

/-- The byte at index `i` of chunk `k` of the program (44_sequencer.md R120). -/
def chunkByte (s : State) (k i : Nat) : Byte :=
  if 256 * (k - 1) + i < s.plen.toNat then s.readByte .pm (256 * (k - 1) + i) else 0x00#8

/-- The payload of data block `k` (R120). -/
def chunkBytes (s : State) (k : Nat) : List Byte := (List.range 256).map (chunkByte s k)

/-- The sample of `CLKIN` that comes after `n` others (log 2). -/
def State.clockAt (s : State) (n : Nat) : Clock := (Nat.repeat State.afterClockSample n s).clockSample

/-- The number of samples of `CLKIN` an `ENCODE` takes: one per logical record, or one per copy (R123; log 14). -/
def clockDraws (s : State) : Nat := if s.params.metaPerCopy then 4 else 2

/-- The sample in the record of a copy: `record` 0 is the header, 1 the footer (R123; log 14). -/
def recordClock (s : State) (record copy : Nat) : Clock :=
  s.clockAt (if s.params.metaPerCopy then 2 * record + copy else record)

/-- The header record of a copy in an `ENCODE` at `s` (R123, R124). -/
def headerRecord (s : State) (copy : Nat) : List Byte :=
  recordOf s.params [0x48#8, 0x44#8, 0x52#8, 0x31#8] (s.readBytes .name 0 s.namelen.toNat) s.ftype (recordClock s 0 copy)

/-- The footer record of a copy in an `ENCODE` at `s` (R123, R124). -/
def footerRecord (s : State) (copy : Nat) : List Byte :=
  recordOf s.params [0x45#8, 0x4F#8, 0x46#8, 0x44#8] (s.readBytes .name 0 s.namelen.toNat) s.ftype (recordClock s 1 copy)

/-- `B` (R119). -/
def dataBlocks (s : State) : Nat := (s.plen.toNat + 255) / 256

/-- The whole file on the medium (30_encoding.md R73). -/
def fileOnMedium (s : State) : List Bool :=
  ones 5526 ++ pairOnMedium s 0x48#8 s.params.hdrSeq (headerRecord s) ++ ones 900 ++
    (List.range (dataBlocks s)).flatMap (fun j =>
      pairOnMedium s 0x44#8 (BitVec.ofNat 16 (j + 1)) (fun _ => chunkBytes s (j + 1)) ++ ones 2700) ++
    pairOnMedium s 0x45#8 (BitVec.ofNat 16 (dataBlocks s + 1)) (footerRecord s) ++ ones 5526

/-- The dump records of the two copies of a logical block (42_block_framer.md R105). -/
def pairDump (s : State) (tag : Byte) (q : Half16) (payload : Nat → List Byte) : List DumpRecord :=
  [⟨tag, q, 0#1, frameBytes s.crcMode tag q 0#1 (payload 0)⟩, ⟨tag, q, 1#1, frameBytes s.crcMode tag q 1#1 (payload 1)⟩]

/-- The dump records of a whole file, in the order of its blocks (R105, R124). -/
def fileDump (s : State) : List DumpRecord :=
  pairDump s 0x48#8 s.params.hdrSeq (headerRecord s) ++
    (List.range (dataBlocks s)).flatMap (fun j =>
      pairDump s 0x44#8 (BitVec.ofNat 16 (j + 1)) (fun _ => chunkBytes s (j + 1))) ++
    pairDump s 0x45#8 (BitVec.ofNat 16 (dataBlocks s + 1)) (footerRecord s)

/-- What an `ENCODE` that is not refused needs of the state (44_sequencer.md R124). -/
abbrev State.EncodeAccepted (s : State) : Prop := s.err = 0#3 ∧ s.plen ≠ 0#32 ∧ s.plen.toNat ≤ 16776704

/-- Two states agree in every input of an `ENCODE` but the clock (44_sequencer.md R128); `META_PER_COPY`, which says only how
often the clock is sampled, may differ. -/
structure SameButClock (s s' : State) : Prop where
  plen : s.plen = s'.plen
  namelen : s.namelen = s'.namelen
  ftype : s.ftype = s'.ftype
  mode : s.crcMode = s'.crcMode
  params : { s.params with metaPerCopy := false } = { s'.params with metaPerCopy := false }
  program : ∀ i, i < s.plen.toNat → s.readByte .pm i = s'.readByte .pm i
  name : ∀ i, i < min s.namelen.toNat 8 → s.readByte .name i = s'.readByte .name i

/-- They also agree in the clock sample of each record (44_sequencer.md R128; 90_conflicts.md C3). -/
structure SameEncodeInputs (s s' : State) : Prop extends SameButClock s s' where
  clock : ∀ record copy, record < 2 → copy < 2 → recordClock s record copy = recordClock s' record copy

/-- The indices of a buffer that a command may store to (20_memory.md R47). -/
def stores (i : Instr) (b : Buffer) (a : Nat) : Prop :=
  match i with
  | .wrblk t _ _ => b = .fb ∧ t ≠ 3#2 ∧ a < payloadLen t + 6
  | .bldhdr => b = .pb ∧ a < 80
  | .bldftr => b = .pb ∧ a < 80
  | .encode => (b = .pb ∧ a < 256) ∨ (b = .fb ∧ a < 262)
  | .reset => False
  | .crcinit => False
  | .crcbyte _ => False
  | .pulse _ => False
  | .bit _ => False
  | .byte _ => False
  | .sync => False
  | .pre => False
  | .post => False
  | .fgap => False
  | .ibgap _ => False
  | .norm _ => False

/-- Samples centred on `DC` within `AMP`: the one thing 93 U1 lets a claim assume of the values of a pulse, as a hypothesis. -/
def Centred (l : List Byte) : Prop := ∀ v ∈ l, Config.dc - Config.amp ≤ v.toNat ∧ v.toNat ≤ Config.dc + Config.amp

/-- The least and the greatest sample of a buffer (45_normalizer.md R132). -/
def Extremes (sb : List Byte) (mn mx : Nat) : Prop :=
  (∃ v ∈ sb, v.toNat = mn) ∧ (∃ v ∈ sb, v.toNat = mx) ∧ ∀ v ∈ sb, mn ≤ v.toNat ∧ v.toNat ≤ mx

end Machine

end Sys2Proof
end

