-- ==== Sys2Proof/Certificates/Slice0/Obligations.lean ====
section
/-! DEFINITION. The statements for the provers. Each says which rule of spec/ it formalises, or that it is derived. -/

open Sys2Proof Sys2Proof.Machine

/-! ## The command word (30_encoding.md) -/

/-- The worked encodings of R62, read by the decoder. -/
def Obligations.WorkedEncodings : Prop :=
  decode 0x01000000#32 = .ok .reset ∧ decode 0x10000000#32 = .ok .crcinit ∧
  decode 0x11000031#32 = .ok (.crcbyte 0x31#8) ∧ decode 0x200003E8#32 = .ok (.pulse 1000#16) ∧
  decode 0x20000221#32 = .ok (.pulse 545#16) ∧ decode 0x21000001#32 = .ok (.bit true) ∧
  decode 0x220000AA#32 = .ok (.byte 0xAA#8) ∧ decode 0x23000000#32 = .ok .sync ∧
  decode 0x24000000#32 = .ok .pre ∧ decode 0x25000000#32 = .ok .post ∧ decode 0x26000000#32 = .ok .fgap ∧
  decode 0x2700012C#32 = .ok (.ibgap 300#16) ∧ decode 0x30000000#32 = .ok (.wrblk 0#2 0#1 0#16) ∧
  decode 0x30010000#32 = .ok (.wrblk 0#2 1#1 0#16) ∧ decode 0x30020001#32 = .ok (.wrblk 1#2 0#1 1#16) ∧
  decode 0x30030001#32 = .ok (.wrblk 1#2 1#1 1#16) ∧ decode 0x30040002#32 = .ok (.wrblk 2#2 0#1 2#16) ∧
  decode 0x30050002#32 = .ok (.wrblk 2#2 1#1 2#16) ∧ decode 0x40000000#32 = .ok .bldhdr ∧
  decode 0x41000000#32 = .ok .bldftr ∧ decode 0x50000000#32 = .ok .encode ∧
  decode 0x6000005F#32 = .ok (.norm 95#8) ∧ decode 0x00000000#32 = .error .illCmd ∧
  decode 0x30060000#32 = .error .illArg ∧ decode 0x21000002#32 = .error .illArg

/-- Derived from R55 to R58: the decoder reads back every operand value of every legal command. -/
def Obligations.DecodeOfEncode : Prop :=
  ∀ i : Instr, i.WellFormed = true → decode (encode i) = .ok i

/-- Derived from R55 to R59: a word the decoder accepts is the word of the command it gives, and that command is legal, so
no bit of the word is ignored. -/
def Obligations.EncodeOfDecode : Prop :=
  ∀ (w : CmdWord) (i : Instr), decode w = .ok i → encode i = w ∧ i.WellFormed = true

/-- Derived from R59: the decoder is total; which words get which verdict, and that all others are commands. -/
def Obligations.DecoderVerdicts : Prop :=
  ∀ w : CmdWord,
    (decode w = .error .illCmd ↔ opField w ∉ legalOpcodes) ∧
    (decode w = .error .illArg ↔ opField w ∈ legalOpcodes ∧ illegalArgument w) ∧
    ((∃ i, decode w = .ok i) ↔ opField w ∈ legalOpcodes ∧ ¬illegalArgument w)

/-! ## Steps -/

/-- Derived (10_state.md R27; the host's moves as a list are the model's choice, log 1): when the host's next move writes a
word to `CMD` that decodes to a command, the step is that command on the state with the move made. -/
def Obligations.StepRunsDecodedCommand : Prop :=
  ∀ (s : State) (w : CmdWord) (rest : List HostMove) (i : Instr),
    s.host = .write 0 w :: rest → decode w = .ok i → step s = exec i (s.withMoves rest)

/-- R148: the order in which refusals are reported, and what each leaves. -/
def Obligations.RefusalPriority : Prop :=
  ∀ (s : State) (w : CmdWord) (rest : List HostMove), s.host = .write 0 w :: rest →
    (s.err ≠ 0#3 → w ≠ 0x01000000#32 → step s = .next (s.withMoves rest)) ∧
    (s.err = 0#3 → opField w ∉ legalOpcodes →
      ∃ t, step s = .next t ∧ OnlyErr (s.withMoves rest) t 3#3) ∧
    (s.err = 0#3 → opField w ∈ legalOpcodes → illegalArgument w →
      ∃ t, step s = .next t ∧ OnlyErr (s.withMoves rest) t 4#3) ∧
    (s.err = 0#3 → w = 0x50000000#32 → s.plen = 0#32 →
      ∃ t, step s = .next t ∧ OnlyErr (s.withMoves rest) t 1#3) ∧
    (s.err = 0#3 → w = 0x50000000#32 → 16776704 < s.plen.toNat →
      ∃ t, step s = .next t ∧ OnlyErr (s.withMoves rest) t 2#3)

/-- Derived (60_exceptions.md R158; the model's choice, log 1): with no move of the host pending the engine waits and all
state survives. -/
def Obligations.IdleEngineWaits : Prop := ∀ s : State, s.host = [] → step s = .next s

/-- Derived (10_state.md R15, R17, R18, R19, R24; cutting a value to the register's width is log 12): a host write of a
register other than `CMD` is accepted whatever `STATUS.ERR` holds; it changes what that register reads as only if it is
read/write, and nothing else. -/
def Obligations.HostRegisterWrite : Prop :=
  ∀ (s : State) (rest : List HostMove) (reg : Nat) (v : BitVec 32),
    reg ≠ 0 → s.host = .write reg v :: rest →
    ∃ t, step s = .next t ∧
      (∀ r, t.readReg r =
        if r = reg ∧ reg = 2 then v.toNat % 4
        else if r = reg ∧ reg = 4 then v.toNat
        else if r = reg ∧ reg = 5 then v.toNat % 256
        else if r = reg ∧ reg = 6 then v.toNat % 4
        else s.readReg r) ∧
      t = { s with host := rest, ctrl := t.ctrl, plen := t.plen, namelen := t.namelen, ftype := t.ftype }

/-- Derived (10_state.md R15, R21 to R26; where the value goes is log 11): what a host read of a register returns; `CMD` and
the registers from 10 on read 0; nothing else changes. -/
def Obligations.HostRegisterRead : Prop :=
  ∀ (s : State) (rest : List HostMove) (reg : Nat), s.host = .read reg :: rest →
    step s = .next { s with host := rest, lastRead := s.readReg reg } ∧
    (reg = 0 ∨ 10 ≤ reg → s.readReg reg = 0) ∧
    (s.StatusOk → s.readReg 1 = s.status.toNat ∧ s.readReg 2 = s.ctrl.toNat) ∧
    s.readReg 3 = s.crc.toNat ∧ s.readReg 4 = s.plen.toNat ∧ s.readReg 5 = s.namelen.toNat ∧
    s.readReg 6 = s.ftype.toNat ∧ s.readReg 7 = s.sb.length ∧ s.readReg 9 = s.blk.toNat ∧
    (s.seqst = .idle → s.readReg 8 = 0) ∧ (s.seqst = .done → s.readReg 8 = 11)

/-- Derived (20_memory.md R37, R45, R46): a byte the host loads is the byte found at that index, every other byte of every
buffer stays, and no register changes. That `PM` takes a load at any index, below `PLEN` or not, is the model's choice
(log 10, DESIGN CHOICE). -/
def Obligations.HostBufferLoad : Prop :=
  ∀ (s : State) (rest : List HostMove) (space : LoadSpace) (a : Nat) (v : Byte),
    s.host = .load space a v :: rest → (space = .pm ∨ a < 256) →
    ∃ t, step s = .next t ∧
      (∀ b x, t.readByte b x =
        if x = a ∧ ((space = .pm ∧ b = .pm) ∨ (space = .name ∧ b = .name) ∨ (space = .pb ∧ b = .pb)) then v
        else s.readByte b x) ∧
      t = { s with host := rest, pm := t.pm, name := t.name, pb := t.pb } ∧ t.fb = s.fb

/-- Derived (20_memory.md R37, R46): a host read of a buffer byte that exists returns it and changes nothing else. That `PM` is
readable at any index is the model's choice (log 10, DESIGN CHOICE), and so is `lastRead`, where the byte goes (log 11, DESIGN
CHOICE). -/
def Obligations.HostBufferRead : Prop :=
  ∀ (s : State) (rest : List HostMove) (a : Nat),
    (∀ b, s.host = .readByte (.buffer b) a :: rest →
      (b = .pm ∨ (b = .fb ∧ a < 262) ∨ (b ≠ .fb ∧ a < 256)) →
      step s = .next { s with host := rest, lastRead := (s.readByte b a).toNat }) ∧
    (∀ h : a < s.sb.length, s.host = .readByte .sb a :: rest →
      step s = .next { s with host := rest, lastRead := (s.sb[a]).toNat })

/-- Derived (20_memory.md R37; the name of the stop is log 10): a host move that names an index a buffer does not have
stops. -/
def Obligations.HostIndexStops : Prop :=
  ∀ (s : State) (rest : List HostMove) (a : Nat) (v : Byte),
    (256 ≤ a → s.host = .load .name a v :: rest → step s = .fault .noSuchIndex) ∧
    (256 ≤ a → s.host = .load .pb a v :: rest → step s = .fault .noSuchIndex) ∧
    (256 ≤ a → s.host = .readByte (.buffer .name) a :: rest → step s = .fault .noSuchIndex) ∧
    (256 ≤ a → s.host = .readByte (.buffer .pb) a :: rest → step s = .fault .noSuchIndex) ∧
    (262 ≤ a → s.host = .readByte (.buffer .fb) a :: rest → step s = .fault .noSuchIndex) ∧
    (s.sb.length ≤ a → s.host = .readByte .sb a :: rest → step s = .fault .noSuchIndex)

/-! ## Reset and what every step keeps -/

/-- Derived (10_state.md R36, its middle column, where it states a value): the state after power-on. `CRC` and the buffers
are left out, their values are the model's free values (log 5, log 6). -/
def Obligations.ResetValues : Prop :=
  State.reset.busy = false ∧ State.reset.done = false ∧ State.reset.err = 0#3 ∧ State.reset.status = 0x00#8 ∧
  State.reset.crcMode = .kermit ∧ State.reset.dbg = false ∧ State.reset.ctrl = 0x00#8 ∧
  State.reset.plen = 0#32 ∧ State.reset.namelen = 0#8 ∧ State.reset.ftype = 0#2 ∧
  State.reset.sblen = 0 ∧ State.reset.seqst = .idle ∧ State.reset.blk = 0#16 ∧
  State.reset.sb = [] ∧ State.reset.pt = [] ∧ State.reset.dt = []

/-- Derived: the state after reset meets every invariant stated below. -/
def Obligations.ResetIsLegal : Prop :=
  State.reset.MemoryOk ∧ State.reset.StatusOk ∧ State.reset.SequencerOk ∧ State.reset.CapacityOk ∧
  State.reset.sb = render State.reset.params State.reset.pt

/-- Derived (20_memory.md R37, R47): no step leaves a buffer out of its canonical form or puts a byte outside its size. -/
def Obligations.MemoryStaysCanonical : Prop :=
  ∀ s t : State, s.MemoryOk → step s = .next t → t.MemoryOk

/-- Derived (10_state.md R23, R24; 93_implementation_defined.md U5): no step produces a reserved bit, an error code above 4,
or a state in which a command is in progress. -/
def Obligations.StatusStaysLegal : Prop :=
  ∀ s t : State, s.StatusOk → step s = .next t → t.StatusOk

/-- Derived (10_state.md R21; 44_sequencer.md R129, R130): between commands the sequencer stands at `IDLE` or at `DONE`, and
`STATUS.DONE` says which. -/
def Obligations.SequencerRests : Prop :=
  ∀ s t : State, s.SequencerOk → step s = .next t → t.SequencerOk

/-- Derived (00_scope.md R11 `SB_CAPACITY`; 93 U6; log 9): a step that goes on has not overrun a finite sample buffer. -/
def Obligations.CapacityIsKept : Prop :=
  ∀ s t : State, s.CapacityOk → step s = .next t → t.CapacityOk

/-- Derived (00_scope.md R11; log 3): the open parameters are fixed for the machine. -/
def Obligations.ParametersStayFixed : Prop := ∀ s t : State, step s = .next t → t.params = s.params

/-- Derived (00_scope.md R13): as long as no `NORM` runs, the samples are the rendering of the pulse trace. -/
def Obligations.SamplesRenderPulses : Prop :=
  ∀ s t : State, s.sb = render s.params s.pt → step s = .next t →
    (∀ w rest a, s.host = .write 0 w :: rest → decode w ≠ .ok (.norm a)) →
    t.sb = render t.params t.pt

/-- Derived (45_normalizer.md head and R135; 44_sequencer.md R130): only `NORM` changes samples already in `SB`, and it keeps
their number; only `RESET` shortens `SB` or `PT`. -/
def Obligations.OnlyNormAndResetTouchSamples : Prop :=
  ∀ s t : State, step s = .next t →
    (∀ w rest, s.host = .write 0 w :: rest → decode w ≠ .ok .reset) →
    s.sb.length ≤ t.sb.length ∧ s.pt <+: t.pt ∧
    ((∀ w rest a, s.host = .write 0 w :: rest → decode w ≠ .ok (.norm a)) → s.sb <+: t.sb)

/-! ## What the commands leave alone -/

/-- Derived (10_state.md R17 to R19, R24, R29, R30; 20_memory.md R37): no command writes what belongs to the host: `CTRL`,
`PLEN`, `NAMELEN`, `FTYPE`, `PM`, `NAME`, nor the model's own fields that stand for the host and the parameters. -/
def Obligations.CommandsKeepHostState : Prop :=
  ∀ (i : Instr) (s t : State), exec i s = .next t →
    t.ctrl = s.ctrl ∧ t.plen = s.plen ∧ t.namelen = s.namelen ∧ t.ftype = s.ftype ∧ t.pm = s.pm ∧ t.name = s.name ∧
    t.host = s.host ∧ t.lastRead = s.lastRead ∧ t.params = s.params

/-- Derived (10_state.md R21 to R25, R35; 43_metadata.md R111): which commands may write `CRC`, `SEQST`, `BLK`, `STATUS`,
`SB`, `PT`, `DT`, and take clock samples; every other command leaves them. -/
def Obligations.RegisterWriters : Prop :=
  ∀ (i : Instr) (s t : State), exec i s = .next t →
    ((i = .crcinit ∨ (∃ v, i = .crcbyte v) ∨ (∃ u c q, i = .wrblk u c q) ∨ i = .encode) ∨ t.crc = s.crc) ∧
    ((i = .reset ∨ i = .encode) ∨ t.seqst = s.seqst ∧ t.blk = s.blk ∧ t.done = s.done ∧ t.busy = s.busy) ∧
    ((i = .reset ∨ i = .encode ∨ ∃ c q, i = .wrblk 3#2 c q) ∨ t.status = s.status) ∧
    ((∃ u c q, i = .wrblk u c q) ∨ i = .encode ∨ t.dt = s.dt) ∧
    (i = .bldhdr ∨ i = .bldftr ∨ i = .encode ∨ t.clk = s.clk ∧ t.clkReads = s.clkReads) ∧
    (i = .crcinit ∨ (∃ v, i = .crcbyte v) ∨ i = .bldhdr ∨ i = .bldftr → t.sb = s.sb ∧ t.pt = s.pt)

/-- Derived (20_memory.md R37, R47): every byte of every indexed buffer outside the indices a command stores to reads as it
did before. -/
def Obligations.BufferFrame : Prop :=
  ∀ (i : Instr) (s t : State), exec i s = .next t →
    ∀ b a, ¬stores i b a → t.readByte b a = s.readByte b a

/-- Derived (00_scope.md R8, R9; 44_sequencer.md R117; 41_pulse.md): with the unbounded sample buffer of R26 every command
ends in every state, whatever its operands; under a finite capacity it can only be stuck on that capacity (log 9). -/
def Obligations.EveryCommandEnds : Prop :=
  ∀ (i : Instr) (s : State),
    (s.params.sbCapacity = none → ∃ t, exec i s = .next t) ∧
    ((∃ t, exec i s = .next t) ∨ (exec i s = .fault .sampleBufferFull ∧ ∃ n, s.params.sbCapacity = some n))

/-- R149: an error of a command, or of a word that is none, has had no other effect; a held error is not replaced. -/
def Obligations.ErrorsArePrecise : Prop :=
  (∀ (i : Instr) (s t : State), exec i s = .next t → s.err = 0#3 → t.err ≠ 0#3 → OnlyErr s t t.err) ∧
  (∀ (s t : State) (w : CmdWord) (rest : List HostMove), s.host = .write 0 w :: rest → step s = .next t →
    (s.err = 0#3 → t.err ≠ 0#3 → OnlyErr (s.withMoves rest) t t.err) ∧
    (s.err ≠ 0#3 → t.err ≠ 0#3 → t.err = s.err))

/-- Derived (60_exceptions.md R150): while an error is held every command but `RESET`, and every word but its word, has no
effect; `RESET` is accepted, and so are the host's writes of the other registers and of the buffers. That a value of `NAMELEN`
above 255 is cut to eight bits is log 12 (DEDUCED), that `PM` takes a load at any index log 10 (DESIGN CHOICE). -/
def Obligations.StickyError : Prop :=
  (∀ (i : Instr) (s : State), s.err ≠ 0#3 → i ≠ .reset → exec i s = .next s) ∧
  (∀ (s : State) (rest : List HostMove), s.err ≠ 0#3 →
    (∀ w, w ≠ 0x01000000#32 → s.host = .write 0 w :: rest → step s = .next (s.withMoves rest)) ∧
    (s.host = .write 0 0x01000000#32 :: rest → ∃ t, step s = .next t ∧ t.err = 0#3 ∧ t.sb = []) ∧
    (∀ v, s.host = .write 4 v :: rest → ∃ t, step s = .next t ∧ t.plen = v ∧ t.err = s.err) ∧
    (∀ v, s.host = .write 5 v :: rest → ∃ t, step s = .next t ∧ t.namelen = v.setWidth 8 ∧ t.err = s.err) ∧
    (∀ v, s.host = .write 6 v :: rest → ∃ t, step s = .next t ∧ t.ftype = v.setWidth 2 ∧ t.err = s.err) ∧
    (∀ v, s.host = .write 2 v :: rest →
      ∃ t, step s = .next t ∧ t.ctrl = v.setWidth 8 &&& 0x03#8 ∧ t.err = s.err) ∧
    (∀ a v, s.host = .load .pm a v :: rest → ∃ t, step s = .next t ∧ t.readByte .pm a = v ∧ t.err = s.err) ∧
    (∀ a v, a < 256 → s.host = .load .name a v :: rest →
      ∃ t, step s = .next t ∧ t.readByte .name a = v ∧ t.err = s.err) ∧
    (∀ a v, a < 256 → s.host = .load .pb a v :: rest →
      ∃ t, step s = .next t ∧ t.readByte .pb a = v ∧ t.err = s.err))

/-! ## RESET (44_sequencer.md) -/

/-- R130: `RESET` always ends, error or not; what it clears and what it keeps; its illegal form; nothing else shortens
`SB`. -/
def Obligations.ResetCommandResult : Prop :=
  (∀ s : State, ∃ t, exec .reset s = .next t ∧ t.sb = [] ∧ t.sblen = 0 ∧ t.pt = [] ∧ t.seqst = .idle ∧ t.blk = 0#16 ∧
    t.done = false ∧ t.err = 0#3 ∧
    t = { s with sb := t.sb, pt := t.pt, seqst := t.seqst, blk := t.blk, status := t.status }) ∧
  (∀ w, opField w = 0x01#8 → argField w ≠ 0#24 → decode w = .error .illArg) ∧
  (∀ (i : Instr) (s t : State), i ≠ .reset → exec i s = .next t → s.sblen ≤ t.sblen)

/-! ## The CRC-16 generator (40_crc.md) -/

/-- R83: `CRCINIT`'s result, its illegal forms and the sticky refusal. -/
def Obligations.CrcInitResult : Prop :=
  (∀ s : State, s.err = 0#3 →
    exec .crcinit s = .next { s with crc := if s.ctrl.getLsbD 0 then 0xFFFF#16 else 0x0000#16 }) ∧
  (∀ s : State, s.err ≠ 0#3 → exec .crcinit s = .next s) ∧
  (∀ w, opField w = 0x10#8 → argField w ≠ 0#24 → decode w = .error .illArg)

/-- R84: `CRCBYTE`'s result, its illegal forms and the sticky refusal; the mode is the one held now. -/
def Obligations.CrcByteResult : Prop :=
  (∀ (s : State) (v : Byte), s.err = 0#3 →
    exec (.crcbyte v) s = .next { s with crc := crcUpdate s.crcMode s.crc v }) ∧
  (∀ (s : State) (v : Byte), s.err ≠ 0#3 → exec (.crcbyte v) s = .next s) ∧
  (∀ w, opField w = 0x11#8 → (argField w).extractLsb' 8 16 ≠ 0#16 → decode w = .error .illArg)

/-- R85: the commands compute the checksum of the bytes, and touch nothing else. -/
def Obligations.CrcCommandsComputeChecksum : Prop :=
  ∀ (s : State) (m : List Byte), s.err = 0#3 →
    m.foldl (fun r v => match r with
      | .next s => exec (.crcbyte v) s
      | r => r) (exec .crcinit s) = .next { s with crc := crcOf s.crcMode m }

/-- R86: the table of worked checksums and their frame bytes, low byte first. -/
def Obligations.CrcWorkedValues : Prop :=
  (∀ r ∈ ([([], 0xFFFF#16, [0xFF#8, 0xFF#8]), ([0x00#8], 0xE1F0#16, [0xF0#8, 0xE1#8]),
      ([0xFF#8], 0xFF00#16, [0x00#8, 0xFF#8]), ([0x41#8], 0xB915#16, [0x15#8, 0xB9#8]),
      ([0x00#8, 0x00#8], 0x1D0F#16, [0x0F#8, 0x1D#8]),
      ([0x31#8, 0x32#8, 0x33#8, 0x34#8, 0x35#8, 0x36#8, 0x37#8, 0x38#8, 0x39#8], 0x29B1#16, [0xB1#8, 0x29#8])] :
        List (List Byte × Half16 × List Byte)),
    crcOf .ccitt r.1 = r.2.1 ∧ frameOf .ccitt r.1 = r.1 ++ r.2.2) ∧
  (∀ r ∈ ([([], 0x0000#16, [0x00#8, 0x00#8]), ([0x00#8], 0x0000#16, [0x00#8, 0x00#8]),
      ([0xFF#8], 0x0F78#16, [0x78#8, 0x0F#8]), ([0x41#8], 0x538D#16, [0x8D#8, 0x53#8]),
      ([0x00#8, 0x00#8], 0x0000#16, [0x00#8, 0x00#8]),
      ([0x31#8, 0x32#8, 0x33#8, 0x34#8, 0x35#8, 0x36#8, 0x37#8, 0x38#8, 0x39#8], 0x2189#16, [0x89#8, 0x21#8])] :
        List (List Byte × Half16 × List Byte)),
    crcOf .kermit r.1 = r.2.1 ∧ frameOf .kermit r.1 = r.1 ++ r.2.2)

/-- Derived (R82 (b)): each round and each update by a byte is a bijection of the accumulator. -/
def Obligations.CrcUpdateIsBijective : Prop :=
  Function.Bijective roundCcitt ∧ Function.Bijective roundKermit ∧
  ∀ (mode : CrcMode) (v : Byte), Function.Bijective (fun a => crcUpdate mode a v)

/-- Derived (R82 (c)): the update is linear over GF(2), and maps zero to zero. -/
def Obligations.CrcUpdateIsLinear : Prop :=
  ∀ (mode : CrcMode) (a a' : Half16) (v v' : Byte),
    crcUpdate mode (a ^^^ a') (v ^^^ v') = crcUpdate mode a v ^^^ crcUpdate mode a' v' ∧
    crcUpdate mode 0#16 0#8 = 0#16

/-- Derived (R82 (d)): two sequences that differ in exactly one byte have different checksums. -/
def Obligations.CrcDetectsOneByte : Prop :=
  ∀ (mode : CrcMode) (m m' : List Byte) (x y : Byte), x ≠ y → crcOf mode (m ++ x :: m') ≠ crcOf mode (m ++ y :: m')

/-- Derived (R82 (e)): in Kermit mode zero bytes at the start leave the checksum as it was, in CCITT mode one shows. -/
def Obligations.CrcLeadingZeros : Prop :=
  ∀ (n : Nat) (m : List Byte),
    crcOf .kermit (List.replicate n 0x00#8 ++ m) = crcOf .kermit m ∧ crcOf .ccitt (0x00#8 :: m) ≠ crcOf .ccitt m

/-! ## The pulse encoder (41_pulse.md) -/

/-- Derived (R87, R88, R90; R89 and 93 U1): the two halves of a pulse, and how many samples it has under each `HALF_POLICY`; one
too short for two samples has none. If the halves are centred on `DC` within `AMP`, which U1 allows as a hypothesis only, so
is the pulse. -/
def Obligations.PulseLength : Prop :=
  ∀ (p : Params) (d : Duration),
    (p.halfPolicy = .floor → (pulseSamples p d).length = 2 * (d.toNat * 11025 / 1000000 / 2)) ∧
    (p.halfPolicy = .keepTotal → (pulseSamples p d).length = d.toNat * 11025 / 1000000) ∧
    (p.halfPolicy = .floor → d.toNat < 182 → pulseSamples p d = []) ∧
    pulseSamples p d = riseShape p (d.toNat * 11025 / 1000000 / 2) ++
      fallShape p (if p.halfPolicy = .floor then d.toNat * 11025 / 1000000 / 2
        else d.toNat * 11025 / 1000000 - d.toNat * 11025 / 1000000 / 2) ∧
    (Centred (riseShape p (halfLengths p.halfPolicy d).1) → Centred (fallShape p (halfLengths p.halfPolicy d).2) →
      Centred (pulseSamples p d) ∧ ∀ v ∈ pulseSamples p d, 128 ≤ v.toNat ∧ v.toNat ≤ 130)

/-- R100, with the pulses of the table of 30_encoding.md R66: `PULSE`, `BIT`, `BYTE`, `SYNC`, `PRE`, `POST`, `FGAP` and
`IBGAP` append the samples of their pulses, which depend on the command alone, and change nothing else. -/
def Obligations.PulseCommandsResult : Prop :=
  ∀ (i : Instr) (ds : List Duration) (s : State), pulsesOf i = some ds → s.err = 0#3 → s.Fits ds →
    exec i s = .next { s with sb := s.sb ++ render s.params ds, pt := s.pt ++ ds }

/-- R101: how many pulses, long and short, and how many samples each command of 41_pulse.md adds. -/
def Obligations.PulseCounts : Prop :=
  ∀ (i : Instr) (l z : Nat) (s t : State), longShort i = some (l, z) → s.err = 0#3 → exec i s = .next t →
    ∃ ds, t.pt = s.pt ++ ds ∧ ds.length = l + z ∧ ds.count 1000#16 = l ∧ ds.count 545#16 = z ∧
      t.sb.length = s.sb.length + (if s.params.halfPolicy = .floor then 10 else 11) * l + 6 * z

/-- Derived (93 U6; log 9): `PULSE`, `BIT`, `BYTE`, `SYNC`, `PRE`, `POST`, `FGAP`, `IBGAP`, `WRBLK` and an accepted `ENCODE` are
stuck exactly when their samples do not fit a finite buffer. -/
def Obligations.PulseCommandsStopWhenFull : Prop :=
  (∀ (i : Instr) (ds : List Duration) (s : State), pulsesOf i = some ds → s.err = 0#3 →
    (exec i s = .fault .sampleBufferFull ↔ ¬s.Fits ds)) ∧
  (∀ (u : BitVec 2) (c : BitVec 1) (q : Half16) (s : State) (n : Nat) (tag : Byte),
    ((u = 0#2 ∧ n = 80 ∧ tag = 0x48#8) ∨ (u = 1#2 ∧ n = 256 ∧ tag = 0x44#8) ∨ (u = 2#2 ∧ n = 80 ∧ tag = 0x45#8)) →
    s.err = 0#3 →
    (exec (.wrblk u c q) s = .fault .sampleBufferFull ↔
      ¬s.Fits (durations (onMedium s.params.blockTrailGap
        (frameBytes s.crcMode tag q c ((List.range n).map (s.readByte .pb))))))) ∧
  (∀ s : State, s.EncodeAccepted →
    (exec .encode s = .fault .sampleBufferFull ↔ ¬s.Fits (durations (fileOnMedium s))))

/-! ## The block framer (42_block_framer.md) -/

/-- R108, with the writes of R103: what `WRBLK` of a legal type leaves in `FB`, `CRC`, `SB`, `PT`, `DT`; nothing else
changes. -/
def Obligations.WriteBlockResult : Prop :=
  ∀ (u : BitVec 2) (c : BitVec 1) (q : Half16) (s : State) (n : Nat) (tag : Byte) (frame : List Byte),
    ((u = 0#2 ∧ n = 80 ∧ tag = 0x48#8) ∨ (u = 1#2 ∧ n = 256 ∧ tag = 0x44#8) ∨ (u = 2#2 ∧ n = 80 ∧ tag = 0x45#8)) →
    frame = frameBytes s.crcMode tag q c ((List.range n).map (s.readByte .pb)) →
    s.err = 0#3 → s.Fits (durations (onMedium s.params.blockTrailGap frame)) →
    ∃ t, exec (.wrblk u c q) s = .next t ∧
      t.crc = crcOf s.crcMode (bodyBytes tag q c ((List.range n).map (s.readByte .pb))) ∧
      (∀ a, t.readByte .fb a = if a < n + 6 then frame.getD a 0#8 else s.readByte .fb a) ∧
      t = { s with
        fb := t.fb
        crc := t.crc
        sb := s.sb ++ render s.params (durations (onMedium s.params.blockTrailGap frame))
        pt := s.pt ++ durations (onMedium s.params.blockTrailGap frame)
        dt := if s.ctrl.getLsbD 1 then s.dt ++ [⟨tag, q, c, frame⟩] else s.dt }

/-- Derived (R103; 30_encoding.md R59 (c)): `WRBLK` with the reserved type raises E_ILLARG and changes nothing else. -/
def Obligations.WriteBlockReservedType : Prop :=
  ∀ (c : BitVec 1) (q : Half16) (s : State), s.err = 0#3 →
    ∃ t, exec (.wrblk 3#2 c q) s = .next t ∧ OnlyErr s t 4#3

/-- R106: the pulses and, under `HALF_POLICY` = `floor`, the samples of one block, first the block proper, then its trailing
gap; `z` is the number of 0 bits among the data bits of its frame. -/
def Obligations.WriteBlockCounts : Prop :=
  ∀ (u : BitVec 2) (c : BitVec 1) (q : Half16) (s t : State) (n z : Nat),
    ((u = 1#2 ∧ n = 256) ∨ ((u = 0#2 ∨ u = 2#2) ∧ n = 80)) → s.err = 0#3 → exec (.wrblk u c q) s = .next t →
    z = ((List.range (n + 6)).map (fun a => 8 - popCount (t.readByte .fb a))).sum →
    ∃ blk gap, t.pt = s.pt ++ blk ++ gap ∧ t.sb = s.sb ++ render s.params blk ++ render s.params gap ∧
      blk.length = 80 + 19 + 9 * (n + 6) + 18 ∧ gap.length = 9 * s.params.blockTrailGap ∧
      (s.params.blockTrailGap = 100 → (blk ++ gap).length = if n = 80 then 1791 else 3375) ∧
      (s.params.halfPolicy = .floor →
        (render s.params blk).length + 4 * z = 480 + 174 + 90 * (n + 6) + 132 ∧
        (render s.params gap).length = 90 * s.params.blockTrailGap)

/-- Derived (R107 as 90_conflicts.md C2 reads it): the frames of the two copies of a block are equal but for the copy index
and the checksum, and both of these do differ. -/
def Obligations.CopiesDifferInCopyAndChecksum : Prop :=
  ∀ (mode : CrcMode) (tag : Byte) (q : Half16) (payload : List Byte),
    (∀ a, a ≠ 3 → a < payload.length + 4 →
      (frameBytes mode tag q 0#1 payload)[a]? = (frameBytes mode tag q 1#1 payload)[a]?) ∧
    (frameBytes mode tag q 0#1 payload)[3]? = some 0x00#8 ∧ (frameBytes mode tag q 1#1 payload)[3]? = some 0x01#8 ∧
    (frameBytes mode tag q 0#1 payload).drop (payload.length + 4) ≠
      (frameBytes mode tag q 1#1 payload).drop (payload.length + 4)

/-- Derived (42_block_framer.md R105, for every command): `CTRL.DBG` reaches nothing but `DT`. -/
def Obligations.DebugFlagReachesOnlyDump : Prop :=
  ∀ (i : Instr) (s : State) (c : BitVec 8) (d : List DumpRecord) (t : State), c.getLsbD 0 = s.ctrl.getLsbD 0 →
    exec i s = .next t →
    ∃ d', exec i { s with ctrl := c, dt := d } = .next { t with ctrl := c, dt := d' }

/-! ## The metadata builder (43_metadata.md) -/

/-- R114 and R115: `BLDHDR` and `BLDFTR` put the record into `PB[0 .. 79]`, take one clock sample, and change nothing else;
their illegal forms and the sticky refusal. How a sample is drawn is log 2. -/
def Obligations.RecordBuildResult : Prop :=
  (∀ (i : Instr) (tag4 : List Byte) (s : State),
    (i = .bldhdr ∧ tag4 = [0x48#8, 0x44#8, 0x52#8, 0x31#8]) ∨ (i = .bldftr ∧ tag4 = [0x45#8, 0x4F#8, 0x46#8, 0x44#8]) →
    (s.err = 0#3 →
      ∃ t, exec i s = .next t ∧
        (∀ a, t.readByte .pb a =
          if a < 80 then
            (recordOf s.params tag4 ((List.range s.namelen.toNat).map (s.readByte .name)) s.ftype s.clockSample).getD a 0#8
          else s.readByte .pb a) ∧
        t = { s with pb := t.pb, clk := s.clk.tail, clkReads := t.clkReads }) ∧
    (s.err ≠ 0#3 → exec i s = .next s)) ∧
  (∀ w, opField w = 0x40#8 ∨ opField w = 0x41#8 → argField w ≠ 0#24 → decode w = .error .illArg)

/-- Derived (43_metadata.md R110, R112, R113; 30_encoding.md R70, R71, R72): for offset parameters that meet R72's constraints,
where every byte of a record comes from; of a longer name the first eight bytes. How `FLAG_FILL` is laid under the type
flags is log 16 (DESIGN CHOICE); at its default 0x20 this is R113 to the letter. -/
def Obligations.RecordLayout : Prop :=
  ∀ (p : Params) (tag4 name : List Byte) (ft : BitVec 2) (clk : Clock) (rec : List Byte),
    p.OffsetsOk → tag4.length = 4 → rec = recordOf p tag4 name ft clk →
    rec.length = 80 ∧
    (∀ a, a < 4 → rec[a]? = tag4[a]?) ∧
    (∀ a, a < 8 → rec[4 + a]? = some (name.getD a 0x20#8)) ∧
    (∀ a, 12 ≤ a → a < 15 → rec[a]? = some 0x20#8) ∧
    (∀ a, a < 5 → rec[15 + a]? =
      (if ft = 0#2 then [p.flagFill, 0xFF#8, 0xFF#8, p.flagFill, p.flagFill]
       else if ft = 1#2 then [p.flagFill, 0x00#8, 0x00#8, p.flagFill, p.flagFill]
       else if ft = 2#2 then [0x01#8, 0xFF#8, 0xFF#8, p.flagFill, p.flagFill]
       else [0x02#8, p.flagFill, p.flagFill, p.flagFill, p.flagFill])[a]?) ∧
    rec[p.offRecType]? = some 0x32#8 ∧ rec[p.offBlkMode]? = some 0x53#8 ∧
    (∀ a, a < 5 → rec[p.offBlkLen + a]? = [0x20#8, 0x20#8, 0x32#8, 0x35#8, 0x36#8][a]?) ∧
    (∀ j, j < 6 → rec[p.offDate + j]? = some (BitVec.ofNat 8 (0x30 + clk.toNat / 2 ^ (44 - 4 * j) % 16))) ∧
    (∀ j, j < 6 → rec[p.offTime + j]? = some (BitVec.ofNat 8 (0x30 + clk.toNat / 2 ^ (20 - 4 * j) % 16))) ∧
    (∀ a, a < 2 → rec[p.offVolume + a]? = [0x30#8, 0x31#8][a]?) ∧
    (∀ a, a < 8 → rec[p.offSystem + a]? = [0x48#8, 0x58#8, 0x2D#8, 0x32#8, 0x30#8, 0x20#8, 0x20#8, 0x20#8][a]?) ∧
    (∀ a, 20 ≤ a → a < 80 → (∀ f ∈ p.fields, a < f.1 ∨ f.1 + f.2 ≤ a) → rec[a]? = some 0x20#8)

/-- R116, after `BLDHDR` and after `BLDFTR`, with the default offsets. -/
def Obligations.RecordFixedFields : Prop :=
  ∀ (s h f : State), s.params = Params.default → s.err = 0#3 → exec .bldhdr s = .next h → exec .bldftr s = .next f →
    (h.readBytes .pb 0 4 = [0x48#8, 0x44#8, 0x52#8, 0x31#8] ∧ f.readBytes .pb 0 4 = [0x45#8, 0x4F#8, 0x46#8, 0x44#8]) ∧
    (∀ t, t = h ∨ t = f →
      t.readBytes .pb 12 3 = [0x20#8, 0x20#8, 0x20#8] ∧ t.readBytes .pb 18 2 = [0x20#8, 0x20#8] ∧
      (s.ftype = 0#2 → t.readBytes .pb 15 5 = [0x20#8, 0xFF#8, 0xFF#8, 0x20#8, 0x20#8]) ∧
      (s.ftype = 1#2 → t.readBytes .pb 15 5 = [0x20#8, 0x00#8, 0x00#8, 0x20#8, 0x20#8]) ∧
      (s.ftype = 2#2 → t.readBytes .pb 15 5 = [0x01#8, 0xFF#8, 0xFF#8, 0x20#8, 0x20#8]) ∧
      (s.ftype = 3#2 → t.readBytes .pb 15 5 = [0x02#8, 0x20#8, 0x20#8, 0x20#8, 0x20#8]) ∧
      t.readBytes .pb 20 2 = [0x32#8, 0x53#8] ∧
      t.readBytes .pb 22 5 = [0x20#8, 0x20#8, 0x32#8, 0x35#8, 0x36#8] ∧
      t.readBytes .pb 39 2 = [0x30#8, 0x31#8] ∧
      t.readBytes .pb 41 8 = [0x48#8, 0x58#8, 0x2D#8, 0x32#8, 0x30#8, 0x20#8, 0x20#8, 0x20#8] ∧
      t.readBytes .pb 49 31 = List.replicate 31 0x20#8) ∧
    h.readBytes .pb 4 76 = f.readBytes .pb 4 76

/-! ## The sequencer (44_sequencer.md) -/

/-- R141 and R142: `ENCODE` of an empty and of a too long program sets the code and changes nothing else; the longest legal
program has 65534 data blocks and its footer the number 65535. -/
def Obligations.EncodeRefusals : Prop :=
  (∀ s : State, s.err = 0#3 → s.plen = 0#32 → ∃ t, exec .encode s = .next t ∧ OnlyErr s t 1#3) ∧
  (∀ s : State, s.err = 0#3 → 16776704 < s.plen.toNat → ∃ t, exec .encode s = .next t ∧ OnlyErr s t 2#3) ∧
  (∀ s : State, s.err = 0#3 → s.plen.toNat = 16776704 → s.params.sbCapacity = none →
    dataBlocks s = 65534 ∧ ∃ t, exec .encode s = .next t ∧ t.err = 0#3 ∧ t.blk = 65535#16)

/-- Derived (R120): what each chunk of the program holds and what loading it into `PB` leaves there; only the last chunk is padded, and
it has at least one program byte. -/
def Obligations.ChunksPadLastBlock : Prop :=
  ∀ (s : State) (k i : Nat), 1 ≤ k → k ≤ dataBlocks s → i < 256 →
    (s.chunk k)[i]? =
      some (if 256 * (k - 1) + i < s.plen.toNat then s.readByte .pm (256 * (k - 1) + i) else 0x00#8) ∧
    some ((s.loadChunk k).readByte .pb i) = (s.chunk k)[i]? ∧
    (k < dataBlocks s → 256 * (k - 1) + i < s.plen.toNat) ∧ 256 * (dataBlocks s - 1) < s.plen.toNat

/-- Derived (R121 to R124 with 30_encoding.md R73; 42_block_framer.md R105): an accepted `ENCODE` appends exactly the file, takes
its clock samples (how one is drawn is log 2, DESIGN CHOICE), and leaves the registers and buffers as R124 says; with
`CTRL.DBG` it appends the dump records of its 2(B + 2) blocks in order, without it none; nothing else changes. Both values of
`META_PER_COPY`; that the build before copy 1 takes a sample of its own is log 14 (DEDUCED). -/
def Obligations.EncodeResult : Prop :=
  ∀ s : State, s.EncodeAccepted → s.Fits (durations (fileOnMedium s)) →
    ∃ t, exec .encode s = .next t ∧
      t.pt = s.pt ++ durations (fileOnMedium s) ∧
      t.sb = s.sb ++ render s.params (durations (fileOnMedium s)) ∧
      t.seqst = .done ∧ t.done = true ∧ t.status &&& 0xFD#8 = s.status &&& 0xFD#8 ∧
      t.blk.toNat = dataBlocks s + 1 ∧
      t.crc = crcOf s.crcMode (bodyBytes 0x45#8 (BitVec.ofNat 16 (dataBlocks s + 1)) 1#1 (footerRecord s 1)) ∧
      (∀ a, t.readByte .pb a =
        if a < 80 then (footerRecord s 1).getD a 0#8
        else if a < 256 then chunkByte s (dataBlocks s) a
        else s.readByte .pb a) ∧
      (∀ a, t.readByte .fb a =
        if a < 86 then
          (frameBytes s.crcMode 0x45#8 (BitVec.ofNat 16 (dataBlocks s + 1)) 1#1 (footerRecord s 1)).getD a 0#8
        else if a < 262 then
          (frameBytes s.crcMode 0x44#8 (BitVec.ofNat 16 (dataBlocks s)) 1#1 (chunkBytes s (dataBlocks s))).getD a 0#8
        else s.readByte .fb a) ∧
      (s.ctrl.getLsbD 1 = false → t.dt = s.dt) ∧
      (s.ctrl.getLsbD 1 = true → t.dt = s.dt ++ fileDump s ∧ (fileDump s).length = 2 * (dataBlocks s + 2)) ∧
      t = { s with
        status := t.status, crc := t.crc, seqst := t.seqst, blk := t.blk, pb := t.pb, fb := t.fb, sb := t.sb,
        pt := t.pt, dt := t.dt, clk := s.clk.drop (clockDraws s),
        clkReads := s.clkReads + (clockDraws s - s.clk.length) }

/-- R125: the pulses of an accepted `ENCODE`, part by part, whatever the bytes, the name, the type, the clock, the mode; with
the default gap 19116 + 9450·B; both ends are 5526 long pulses; the samples are 10 per long and 6 per short pulse. -/
def Obligations.EncodePulseCount : Prop :=
  ∀ (s : State) (g : Nat), s.EncodeAccepted → s.params.sbCapacity = none → g = s.params.blockTrailGap →
    ∃ t header data footer added, exec .encode s = .next t ∧ t.pt = s.pt ++ added ∧
      added = List.replicate 5526 1000#16 ++ (header ++ List.replicate 900 1000#16 ++ data ++ footer) ++
        List.replicate 5526 1000#16 ∧
      header.length = 2 * (891 + 9 * g) ∧ footer.length = 2 * (891 + 9 * g) ∧
      data.length = (2 * (2475 + 9 * g) + 2700) * dataBlocks s ∧
      added.length = (15516 + 36 * g) + (7650 + 18 * g) * dataBlocks s ∧
      (g = 100 → added.length = 19116 + 9450 * dataBlocks s) ∧
      (s.params.halfPolicy = .floor →
        t.sb.length = s.sb.length + 10 * added.count 1000#16 + 6 * added.count 545#16)

/-- R126: in the output of an `ENCODE` every block with copy index 0 is followed, before any other, by the block with copy
index 1 and the same type tag, sequence number and payload, whose checksum differs; there are B + 2 such pairs. `META_PER_COPY`
is at its default, or the samples of the two builds of a record are equal (R123; 90_conflicts.md C3; log 14). -/
def Obligations.EncodeDoubleWrite : Prop :=
  ∀ s : State, s.EncodeAccepted → s.params.sbCapacity = none →
    (s.params.metaPerCopy = true → s.clockAt 0 = s.clockAt 1 ∧ s.clockAt 2 = s.clockAt 3) →
    ∃ (t : State) (tag : Nat → Byte) (seq : Nat → Half16) (payload : Nat → List Byte) (gap : Nat → Nat),
      exec .encode s = .next t ∧
      t.pt = s.pt ++ durations (ones 5526 ++
        (List.range (dataBlocks s + 2)).flatMap (fun j =>
          onMedium s.params.blockTrailGap (frameBytes s.crcMode (tag j) (seq j) 0#1 (payload j)) ++
          onMedium s.params.blockTrailGap (frameBytes s.crcMode (tag j) (seq j) 1#1 (payload j)) ++ ones (9 * gap j)) ++
        ones 5526) ∧
      (∀ j, j < dataBlocks s + 2 →
        tag j = (if j = 0 then 0x48#8 else if j ≤ dataBlocks s then 0x44#8 else 0x45#8) ∧
        (payload j).length = (if j = 0 then 80 else if j ≤ dataBlocks s then 256 else 80) ∧
        gap j = (if j = 0 then 100 else if j ≤ dataBlocks s then 300 else 0) ∧
        (seq j).toNat = (if j = 0 then s.params.hdrSeq.toNat else j) ∧
        crcOf s.crcMode (bodyBytes (tag j) (seq j) 0#1 (payload j)) ≠
          crcOf s.crcMode (bodyBytes (tag j) (seq j) 1#1 (payload j)))

/-- Derived (R128; R123, 90_conflicts.md C3, log 14): the output of `ENCODE` on an empty `SB` is a function of its inputs and the
clock sample of each record, whatever the rest of the two states holds and whichever value `META_PER_COPY` has in each; with
different clock samples the two files differ only in the twelve timestamp bytes of their records, and what is computed from
them. -/
def Obligations.EncodeReproducible : Prop :=
  (∀ s s' : State, SameEncodeInputs s s' → s.params.sbCapacity = none →
    s.EncodeAccepted → s'.err = 0#3 → s.sb = [] → s'.sb = [] →
    ∃ t t', exec .encode s = .next t ∧ exec .encode s' = .next t' ∧ t.sb = t'.sb ∧ t.sblen = t'.sblen) ∧
  (∀ s s' : State, SameButClock s s' → s.params.sbCapacity = none → s.EncodeAccepted → s'.err = 0#3 →
    ∃ t t', exec .encode s = .next t ∧ exec .encode s' = .next t' ∧
      t.pt = s.pt ++ durations (fileOnMedium s) ∧ t'.pt = s'.pt ++ durations (fileOnMedium s') ∧
      dataBlocks s = dataBlocks s' ∧ (∀ k, chunkBytes s k = chunkBytes s' k) ∧
      ∀ copy a, ¬(s.params.offDate ≤ a ∧ a < s.params.offDate + 6) → ¬(s.params.offTime ≤ a ∧ a < s.params.offTime + 6) →
        (headerRecord s copy)[a]? = (headerRecord s' copy)[a]? ∧ (footerRecord s copy)[a]? = (footerRecord s' copy)[a]?)

/-- Derived (R118, R119; 00_scope.md R9): the state machine of R119, started as an accepted `ENCODE` starts it, reaches after
its 7 + 3·B arrows the state of the one big step of R124, under both values of `META_PER_COPY`. -/
def Obligations.SequencerSmallSteps : Prop :=
  ∀ s : State, s.plen ≠ 0#32 → s.plen.toNat ≤ 16776704 →
    Nat.repeat State.seqStep (7 + 3 * dataBlocks s) s.encodeStart = s.encodeFile

/-! ## The normalizer (45_normalizer.md) -/

/-- R135: `NORM` leaves an empty or flat buffer alone and otherwise rewrites every sample from its own old value and the
extremes of the old buffer; nothing else changes; with `a` = 0 every sample becomes 128; its illegal forms and the sticky
refusal. -/
def Obligations.NormResult : Prop :=
  (∀ (a : Byte) (s : State), s.err = 0#3 →
    (s.sb = [] → exec (.norm a) s = .next s) ∧
    (∀ m, Extremes s.sb m m → exec (.norm a) s = .next s) ∧
    (∀ mn mx, Extremes s.sb mn mx → mn < mx →
      exec (.norm a) s = .next { s with sb := s.sb.map (rescale s.params.normRound mn mx a.toNat) })) ∧
  (∀ (r : NormRound) (mn mx : Nat) (v : Byte), mn < mx → mx ≤ 255 → rescale r mn mx 0 v = 128#8) ∧
  (∀ (a : Byte) (s : State), s.err ≠ 0#3 → exec (.norm a) s = .next s) ∧
  (∀ w, opField w = 0x60#8 → (argField w).extractLsb' 8 16 ≠ 0#16 → decode w = .error .illArg)

/-- R134: the rescaling of one sample is the rational formula, clamped and rounded. -/
def Obligations.RescaleIsExactRational : Prop :=
  ∀ (mn mx a : Nat) (s : Byte) (q qc : ℚ), mn < mx → mx ≤ 255 → a ≤ 255 →
    q = 128 + (2 * (s.toNat : ℚ) - mx - mn) * a / ((mx : ℚ) - mn) → qc = min 255 (max 0 q) →
    q = 128 + ((s.toNat : ℚ) - ((mx : ℚ) + mn) / 2) * a / (((mx : ℚ) - mn) / 2) ∧
    ((rescale .floor mn mx a s).toNat : ℤ) = ⌊qc⌋ ∧
    ((rescale .nearest mn mx a s).toNat : ℤ) = ⌊qc + 1 / 2⌋ ∧
    (∀ r, |((rescale r mn mx a s).toNat : ℚ) - qc| < 1) ∧
    (∀ r (k : ℕ), qc = k → (rescale r mn mx a s).toNat = k) ∧
    (mn ≤ s.toNat → s.toNat ≤ mx → 128 - (a : ℚ) ≤ q ∧ q ≤ 128 + a ∧ (a ≤ 127 → qc = q))

/-- R136: after a `NORM a` that was not a no-op, with `a` at most 127, the least sample is 128 - a and the greatest 128 + a;
the map is monotone, whatever the amplitude. -/
def Obligations.NormReachesTarget : Prop :=
  (∀ (a : Byte) (s : State) (mn mx : Nat), s.err = 0#3 → a.toNat ≤ 127 → Extremes s.sb mn mx → mn < mx →
    ∃ t, exec (.norm a) s = .next t ∧ Extremes t.sb (128 - a.toNat) (128 + a.toNat) ∧ t.sb.length = s.sb.length) ∧
  (∀ (r : NormRound) (mn mx : Nat) (a x y : Byte), mn < mx → x.toNat ≤ y.toNat →
    (rescale r mn mx a.toNat x).toNat ≤ (rescale r mn mx a.toNat y).toNat)

/-- R137: a buffer already at the target is left as it is, and `NORM a; NORM a` is `NORM a`. -/
def Obligations.NormIsIdempotent : Prop :=
  (∀ (a : Byte) (s : State), s.err = 0#3 → 1 ≤ a.toNat → a.toNat ≤ 127 →
    Extremes s.sb (128 - a.toNat) (128 + a.toNat) → exec (.norm a) s = .next s) ∧
  (∀ (a : Byte) (s t : State), a.toNat ≤ 127 → exec (.norm a) s = .next t → exec (.norm a) t = .next t)

/-! ## The clock port (10_state.md) -/

/-- Derived (10_state.md R34; 70_reset_and_hazards.md R162; that the coming samples of `CLKIN` stand in a list is log 2, DESIGN
CHOICE): a clock draw of the host is appended to the coming samples and changes nothing else; it is the next sample if none was
fixed before, and leaves the next one as it is otherwise. -/
def Obligations.HostClockDraw : Prop :=
  ∀ (s : State) (rest : List HostMove) (v : Clock), s.host = .clock v :: rest →
    ∃ t, step s = .next t ∧ t = { s with host := rest, clk := s.clk ++ [v] } ∧
      t.clockAt s.clk.length = v ∧ (∀ n, n < s.clk.length → t.clockAt n = s.clockAt n)
end

