-- ==== Sys2Proof/Laws/Crc.lean ====
section
/-! SUPPORT. Small laws of the checksum function. -/

namespace Sys2Proof.Machine

@[simp] theorem crcOf_nil (mode : CrcMode) : crcOf mode [] = crcInit mode := rfl

/-- A checksum continues from the checksum of what came before. -/
theorem crcOf_append (mode : CrcMode) (m m' : List Byte) :
    crcOf mode (m ++ m') = m'.foldl (crcUpdate mode) (crcOf mode m) := List.foldl_append ..

end Sys2Proof.Machine
end

