-- ==== Sys2Proof/Laws/Decode.lean ====
section
/-! SUPPORT. The two fields of an encoded command. -/

namespace Sys2Proof

/-- Bit `k` of a command word is a bit of its operand field below 24, of its opcode from there on (R55). -/
theorem getLsbD_encode (i : Instr) (k : Nat) (hk : k < 32) :
    (encode i).getLsbD k = if k < 24 then (operandsOf i).getLsbD k else (opcodeOf i).getLsbD (k - 24) := by
  rw [encode, BitVec.getLsbD_or, BitVec.getLsbD_shiftLeft, BitVec.getLsbD_setWidth, BitVec.getLsbD_setWidth]
  by_cases h : k < 24
  · simp [h, hk]
  · simp [h, hk, BitVec.getLsbD_of_ge _ _ (Nat.le_of_not_lt h), show k - 24 < 32 by omega]

@[simp] theorem opField_encode (i : Instr) : opField (encode i) = opcodeOf i := by
  apply BitVec.eq_of_getLsbD_eq
  intro k hk
  rw [opField, BitVec.getLsbD_extractLsb', getLsbD_encode _ _ (by omega), if_neg (by omega)]
  simp [hk]

@[simp] theorem argField_encode (i : Instr) : argField (encode i) = operandsOf i := by
  apply BitVec.eq_of_getLsbD_eq
  intro k hk
  rw [argField, BitVec.getLsbD_extractLsb', getLsbD_encode _ _ (by omega), if_pos (by omega)]
  simp [hk]

/-- A word is the two fields it is made of (R55). -/
theorem eq_of_fields (w : CmdWord) : w = ((opField w).setWidth 32 <<< 24) ||| (argField w).setWidth 32 := by
  apply BitVec.eq_of_getLsbD_eq
  intro k hk
  rw [BitVec.getLsbD_or, BitVec.getLsbD_shiftLeft, BitVec.getLsbD_setWidth, BitVec.getLsbD_setWidth]
  by_cases h : k < 24
  · simp [h, hk, argField]
  · simp [h, hk, opField, show k - 24 < 32 by omega, show k - 24 < 8 by omega, show 24 + (k - 24) = k by omega,
      BitVec.getLsbD_of_ge _ _ (Nat.le_of_not_lt h)]

/-- A row that is found is a row of the table, and its opcode is the one looked for. -/
theorem rowOf_some {op : BitVec 8} {r : OpcodeRow} (h : rowOf op = some r) : r ∈ opcodeRows ∧ r.opcode = op :=
  ⟨List.mem_of_find?_eq_some h, by simpa using List.find?_some h⟩

/-- A word is accepted exactly as the command of its opcode's row, its reserved bits zero and the command legal. -/
theorem decode_ok_iff {w : CmdWord} {i : Instr} :
    decode w = .ok i ↔
      ∃ r, rowOf (opField w) = some r ∧ argField w &&& ~~~r.operandBits = 0#24 ∧ i = r.command (argField w) ∧
        i.WellFormed = true := by
  unfold decode readRow
  cases rowOf (opField w) with
  | none => simp
  | some r =>
    simp only [Option.some.injEq, exists_eq_left']
    split
    · rename_i h
      simp only [Except.ok.injEq]
      exact ⟨fun e => ⟨h.1, e.symm, e ▸ h.2⟩, fun e => e.2.1.symm⟩
    · rename_i h
      simp only [reduceCtorEq, false_iff]
      rintro ⟨h1, rfl, h2⟩
      exact h ⟨h1, h2⟩

/-- Each command's row is the one its opcode finds. -/
theorem rowOf_opcodeOf (i : Instr) : ∃ r, rowOf (opcodeOf i) = some r := by
  cases i <;> exact ⟨_, rfl⟩

end Sys2Proof
end

