-- ==== Sys2Proof/Laws/State.lean ====
section
/-! SUPPORT. One lemma per field of State per update of it, so that no proof unfolds a record update. -/

namespace Sys2Proof.Machine

/-! ### setDone -/

@[simp] theorem State.setDone_status (s : State) (b : Bool) : (s.setDone b).status = (if b then s.status ||| 0x02#8 else s.status &&& 0xFD#8) := rfl
@[simp] theorem State.setDone_ctrl (s : State) (b : Bool) : (s.setDone b).ctrl = s.ctrl := rfl
@[simp] theorem State.setDone_crc (s : State) (b : Bool) : (s.setDone b).crc = s.crc := rfl
@[simp] theorem State.setDone_plen (s : State) (b : Bool) : (s.setDone b).plen = s.plen := rfl
@[simp] theorem State.setDone_namelen (s : State) (b : Bool) : (s.setDone b).namelen = s.namelen := rfl
@[simp] theorem State.setDone_ftype (s : State) (b : Bool) : (s.setDone b).ftype = s.ftype := rfl
@[simp] theorem State.setDone_seqst (s : State) (b : Bool) : (s.setDone b).seqst = s.seqst := rfl
@[simp] theorem State.setDone_blk (s : State) (b : Bool) : (s.setDone b).blk = s.blk := rfl
@[simp] theorem State.setDone_pm (s : State) (b : Bool) : (s.setDone b).pm = s.pm := rfl
@[simp] theorem State.setDone_name (s : State) (b : Bool) : (s.setDone b).name = s.name := rfl
@[simp] theorem State.setDone_pb (s : State) (b : Bool) : (s.setDone b).pb = s.pb := rfl
@[simp] theorem State.setDone_fb (s : State) (b : Bool) : (s.setDone b).fb = s.fb := rfl
@[simp] theorem State.setDone_sb (s : State) (b : Bool) : (s.setDone b).sb = s.sb := rfl
@[simp] theorem State.setDone_pt (s : State) (b : Bool) : (s.setDone b).pt = s.pt := rfl
@[simp] theorem State.setDone_dt (s : State) (b : Bool) : (s.setDone b).dt = s.dt := rfl
@[simp] theorem State.setDone_clk (s : State) (b : Bool) : (s.setDone b).clk = s.clk := rfl
@[simp] theorem State.setDone_clkReads (s : State) (b : Bool) : (s.setDone b).clkReads = s.clkReads := rfl
@[simp] theorem State.setDone_host (s : State) (b : Bool) : (s.setDone b).host = s.host := rfl
@[simp] theorem State.setDone_lastRead (s : State) (b : Bool) : (s.setDone b).lastRead = s.lastRead := rfl
@[simp] theorem State.setDone_params (s : State) (b : Bool) : (s.setDone b).params = s.params := rfl

/-! ### setErr -/

@[simp] theorem State.setErr_status (s : State) (e : BitVec 3) : (s.setErr e).status = ((s.status &&& 0xE3#8) ||| (e.setWidth 8 <<< 2)) := rfl
@[simp] theorem State.setErr_ctrl (s : State) (e : BitVec 3) : (s.setErr e).ctrl = s.ctrl := rfl
@[simp] theorem State.setErr_crc (s : State) (e : BitVec 3) : (s.setErr e).crc = s.crc := rfl
@[simp] theorem State.setErr_plen (s : State) (e : BitVec 3) : (s.setErr e).plen = s.plen := rfl
@[simp] theorem State.setErr_namelen (s : State) (e : BitVec 3) : (s.setErr e).namelen = s.namelen := rfl
@[simp] theorem State.setErr_ftype (s : State) (e : BitVec 3) : (s.setErr e).ftype = s.ftype := rfl
@[simp] theorem State.setErr_seqst (s : State) (e : BitVec 3) : (s.setErr e).seqst = s.seqst := rfl
@[simp] theorem State.setErr_blk (s : State) (e : BitVec 3) : (s.setErr e).blk = s.blk := rfl
@[simp] theorem State.setErr_pm (s : State) (e : BitVec 3) : (s.setErr e).pm = s.pm := rfl
@[simp] theorem State.setErr_name (s : State) (e : BitVec 3) : (s.setErr e).name = s.name := rfl
@[simp] theorem State.setErr_pb (s : State) (e : BitVec 3) : (s.setErr e).pb = s.pb := rfl
@[simp] theorem State.setErr_fb (s : State) (e : BitVec 3) : (s.setErr e).fb = s.fb := rfl
@[simp] theorem State.setErr_sb (s : State) (e : BitVec 3) : (s.setErr e).sb = s.sb := rfl
@[simp] theorem State.setErr_pt (s : State) (e : BitVec 3) : (s.setErr e).pt = s.pt := rfl
@[simp] theorem State.setErr_dt (s : State) (e : BitVec 3) : (s.setErr e).dt = s.dt := rfl
@[simp] theorem State.setErr_clk (s : State) (e : BitVec 3) : (s.setErr e).clk = s.clk := rfl
@[simp] theorem State.setErr_clkReads (s : State) (e : BitVec 3) : (s.setErr e).clkReads = s.clkReads := rfl
@[simp] theorem State.setErr_host (s : State) (e : BitVec 3) : (s.setErr e).host = s.host := rfl
@[simp] theorem State.setErr_lastRead (s : State) (e : BitVec 3) : (s.setErr e).lastRead = s.lastRead := rfl
@[simp] theorem State.setErr_params (s : State) (e : BitVec 3) : (s.setErr e).params = s.params := rfl

/-! ### clearStatus -/

@[simp] theorem State.clearStatus_status (s : State) : (s.clearStatus).status = (0x00#8) := rfl
@[simp] theorem State.clearStatus_ctrl (s : State) : (s.clearStatus).ctrl = s.ctrl := rfl
@[simp] theorem State.clearStatus_crc (s : State) : (s.clearStatus).crc = s.crc := rfl
@[simp] theorem State.clearStatus_plen (s : State) : (s.clearStatus).plen = s.plen := rfl
@[simp] theorem State.clearStatus_namelen (s : State) : (s.clearStatus).namelen = s.namelen := rfl
@[simp] theorem State.clearStatus_ftype (s : State) : (s.clearStatus).ftype = s.ftype := rfl
@[simp] theorem State.clearStatus_seqst (s : State) : (s.clearStatus).seqst = s.seqst := rfl
@[simp] theorem State.clearStatus_blk (s : State) : (s.clearStatus).blk = s.blk := rfl
@[simp] theorem State.clearStatus_pm (s : State) : (s.clearStatus).pm = s.pm := rfl
@[simp] theorem State.clearStatus_name (s : State) : (s.clearStatus).name = s.name := rfl
@[simp] theorem State.clearStatus_pb (s : State) : (s.clearStatus).pb = s.pb := rfl
@[simp] theorem State.clearStatus_fb (s : State) : (s.clearStatus).fb = s.fb := rfl
@[simp] theorem State.clearStatus_sb (s : State) : (s.clearStatus).sb = s.sb := rfl
@[simp] theorem State.clearStatus_pt (s : State) : (s.clearStatus).pt = s.pt := rfl
@[simp] theorem State.clearStatus_dt (s : State) : (s.clearStatus).dt = s.dt := rfl
@[simp] theorem State.clearStatus_clk (s : State) : (s.clearStatus).clk = s.clk := rfl
@[simp] theorem State.clearStatus_clkReads (s : State) : (s.clearStatus).clkReads = s.clkReads := rfl
@[simp] theorem State.clearStatus_host (s : State) : (s.clearStatus).host = s.host := rfl
@[simp] theorem State.clearStatus_lastRead (s : State) : (s.clearStatus).lastRead = s.lastRead := rfl
@[simp] theorem State.clearStatus_params (s : State) : (s.clearStatus).params = s.params := rfl

/-! ### emit -/

@[simp] theorem State.emit_status (s : State) (ds : List Duration) : (s.emit ds).status = s.status := rfl
@[simp] theorem State.emit_ctrl (s : State) (ds : List Duration) : (s.emit ds).ctrl = s.ctrl := rfl
@[simp] theorem State.emit_crc (s : State) (ds : List Duration) : (s.emit ds).crc = s.crc := rfl
@[simp] theorem State.emit_plen (s : State) (ds : List Duration) : (s.emit ds).plen = s.plen := rfl
@[simp] theorem State.emit_namelen (s : State) (ds : List Duration) : (s.emit ds).namelen = s.namelen := rfl
@[simp] theorem State.emit_ftype (s : State) (ds : List Duration) : (s.emit ds).ftype = s.ftype := rfl
@[simp] theorem State.emit_seqst (s : State) (ds : List Duration) : (s.emit ds).seqst = s.seqst := rfl
@[simp] theorem State.emit_blk (s : State) (ds : List Duration) : (s.emit ds).blk = s.blk := rfl
@[simp] theorem State.emit_pm (s : State) (ds : List Duration) : (s.emit ds).pm = s.pm := rfl
@[simp] theorem State.emit_name (s : State) (ds : List Duration) : (s.emit ds).name = s.name := rfl
@[simp] theorem State.emit_pb (s : State) (ds : List Duration) : (s.emit ds).pb = s.pb := rfl
@[simp] theorem State.emit_fb (s : State) (ds : List Duration) : (s.emit ds).fb = s.fb := rfl
@[simp] theorem State.emit_sb (s : State) (ds : List Duration) : (s.emit ds).sb = (s.sb ++ render s.params ds) := rfl
@[simp] theorem State.emit_pt (s : State) (ds : List Duration) : (s.emit ds).pt = (s.pt ++ ds) := rfl
@[simp] theorem State.emit_dt (s : State) (ds : List Duration) : (s.emit ds).dt = s.dt := rfl
@[simp] theorem State.emit_clk (s : State) (ds : List Duration) : (s.emit ds).clk = s.clk := rfl
@[simp] theorem State.emit_clkReads (s : State) (ds : List Duration) : (s.emit ds).clkReads = s.clkReads := rfl
@[simp] theorem State.emit_host (s : State) (ds : List Duration) : (s.emit ds).host = s.host := rfl
@[simp] theorem State.emit_lastRead (s : State) (ds : List Duration) : (s.emit ds).lastRead = s.lastRead := rfl
@[simp] theorem State.emit_params (s : State) (ds : List Duration) : (s.emit ds).params = s.params := rfl

/-! ### emitBits -/

@[simp] theorem State.emitBits_status (s : State) (bs : List Bool) : (s.emitBits bs).status = s.status := rfl
@[simp] theorem State.emitBits_ctrl (s : State) (bs : List Bool) : (s.emitBits bs).ctrl = s.ctrl := rfl
@[simp] theorem State.emitBits_crc (s : State) (bs : List Bool) : (s.emitBits bs).crc = s.crc := rfl
@[simp] theorem State.emitBits_plen (s : State) (bs : List Bool) : (s.emitBits bs).plen = s.plen := rfl
@[simp] theorem State.emitBits_namelen (s : State) (bs : List Bool) : (s.emitBits bs).namelen = s.namelen := rfl
@[simp] theorem State.emitBits_ftype (s : State) (bs : List Bool) : (s.emitBits bs).ftype = s.ftype := rfl
@[simp] theorem State.emitBits_seqst (s : State) (bs : List Bool) : (s.emitBits bs).seqst = s.seqst := rfl
@[simp] theorem State.emitBits_blk (s : State) (bs : List Bool) : (s.emitBits bs).blk = s.blk := rfl
@[simp] theorem State.emitBits_pm (s : State) (bs : List Bool) : (s.emitBits bs).pm = s.pm := rfl
@[simp] theorem State.emitBits_name (s : State) (bs : List Bool) : (s.emitBits bs).name = s.name := rfl
@[simp] theorem State.emitBits_pb (s : State) (bs : List Bool) : (s.emitBits bs).pb = s.pb := rfl
@[simp] theorem State.emitBits_fb (s : State) (bs : List Bool) : (s.emitBits bs).fb = s.fb := rfl
@[simp] theorem State.emitBits_sb (s : State) (bs : List Bool) : (s.emitBits bs).sb = (s.sb ++ render s.params (bs.map bitPulse)) := rfl
@[simp] theorem State.emitBits_pt (s : State) (bs : List Bool) : (s.emitBits bs).pt = (s.pt ++ bs.map bitPulse) := rfl
@[simp] theorem State.emitBits_dt (s : State) (bs : List Bool) : (s.emitBits bs).dt = s.dt := rfl
@[simp] theorem State.emitBits_clk (s : State) (bs : List Bool) : (s.emitBits bs).clk = s.clk := rfl
@[simp] theorem State.emitBits_clkReads (s : State) (bs : List Bool) : (s.emitBits bs).clkReads = s.clkReads := rfl
@[simp] theorem State.emitBits_host (s : State) (bs : List Bool) : (s.emitBits bs).host = s.host := rfl
@[simp] theorem State.emitBits_lastRead (s : State) (bs : List Bool) : (s.emitBits bs).lastRead = s.lastRead := rfl
@[simp] theorem State.emitBits_params (s : State) (bs : List Bool) : (s.emitBits bs).params = s.params := rfl

/-! ### storeFrame -/

@[simp] theorem State.storeFrame_status (s : State) (t : BitVec 2) (c : BitVec 1) (q : Half16) : (s.storeFrame t c q).status = s.status := rfl
@[simp] theorem State.storeFrame_ctrl (s : State) (t : BitVec 2) (c : BitVec 1) (q : Half16) : (s.storeFrame t c q).ctrl = s.ctrl := rfl
@[simp] theorem State.storeFrame_crc (s : State) (t : BitVec 2) (c : BitVec 1) (q : Half16) : (s.storeFrame t c q).crc = (crcOf s.crcMode (s.blockBody t c q)) := rfl
@[simp] theorem State.storeFrame_plen (s : State) (t : BitVec 2) (c : BitVec 1) (q : Half16) : (s.storeFrame t c q).plen = s.plen := rfl
@[simp] theorem State.storeFrame_namelen (s : State) (t : BitVec 2) (c : BitVec 1) (q : Half16) : (s.storeFrame t c q).namelen = s.namelen := rfl
@[simp] theorem State.storeFrame_ftype (s : State) (t : BitVec 2) (c : BitVec 1) (q : Half16) : (s.storeFrame t c q).ftype = s.ftype := rfl
@[simp] theorem State.storeFrame_seqst (s : State) (t : BitVec 2) (c : BitVec 1) (q : Half16) : (s.storeFrame t c q).seqst = s.seqst := rfl
@[simp] theorem State.storeFrame_blk (s : State) (t : BitVec 2) (c : BitVec 1) (q : Half16) : (s.storeFrame t c q).blk = s.blk := rfl
@[simp] theorem State.storeFrame_pm (s : State) (t : BitVec 2) (c : BitVec 1) (q : Half16) : (s.storeFrame t c q).pm = s.pm := rfl
@[simp] theorem State.storeFrame_name (s : State) (t : BitVec 2) (c : BitVec 1) (q : Half16) : (s.storeFrame t c q).name = s.name := rfl
@[simp] theorem State.storeFrame_pb (s : State) (t : BitVec 2) (c : BitVec 1) (q : Half16) : (s.storeFrame t c q).pb = s.pb := rfl
@[simp] theorem State.storeFrame_fb (s : State) (t : BitVec 2) (c : BitVec 1) (q : Half16) : (s.storeFrame t c q).fb = (s.fb.writeRun 0 (s.blockFrame t c q)) := rfl
@[simp] theorem State.storeFrame_sb (s : State) (t : BitVec 2) (c : BitVec 1) (q : Half16) : (s.storeFrame t c q).sb = s.sb := rfl
@[simp] theorem State.storeFrame_pt (s : State) (t : BitVec 2) (c : BitVec 1) (q : Half16) : (s.storeFrame t c q).pt = s.pt := rfl
@[simp] theorem State.storeFrame_dt (s : State) (t : BitVec 2) (c : BitVec 1) (q : Half16) : (s.storeFrame t c q).dt = (if s.dbg then s.dt ++ [⟨blockTag t, q, c, s.blockFrame t c q⟩] else s.dt) := rfl
@[simp] theorem State.storeFrame_clk (s : State) (t : BitVec 2) (c : BitVec 1) (q : Half16) : (s.storeFrame t c q).clk = s.clk := rfl
@[simp] theorem State.storeFrame_clkReads (s : State) (t : BitVec 2) (c : BitVec 1) (q : Half16) : (s.storeFrame t c q).clkReads = s.clkReads := rfl
@[simp] theorem State.storeFrame_host (s : State) (t : BitVec 2) (c : BitVec 1) (q : Half16) : (s.storeFrame t c q).host = s.host := rfl
@[simp] theorem State.storeFrame_lastRead (s : State) (t : BitVec 2) (c : BitVec 1) (q : Half16) : (s.storeFrame t c q).lastRead = s.lastRead := rfl
@[simp] theorem State.storeFrame_params (s : State) (t : BitVec 2) (c : BitVec 1) (q : Half16) : (s.storeFrame t c q).params = s.params := rfl

/-! ### writeBlock -/

@[simp] theorem State.writeBlock_status (s : State) (t : BitVec 2) (c : BitVec 1) (q : Half16) : (s.writeBlock t c q).status = s.status := rfl
@[simp] theorem State.writeBlock_ctrl (s : State) (t : BitVec 2) (c : BitVec 1) (q : Half16) : (s.writeBlock t c q).ctrl = s.ctrl := rfl
@[simp] theorem State.writeBlock_crc (s : State) (t : BitVec 2) (c : BitVec 1) (q : Half16) : (s.writeBlock t c q).crc = (crcOf s.crcMode (s.blockBody t c q)) := rfl
@[simp] theorem State.writeBlock_plen (s : State) (t : BitVec 2) (c : BitVec 1) (q : Half16) : (s.writeBlock t c q).plen = s.plen := rfl
@[simp] theorem State.writeBlock_namelen (s : State) (t : BitVec 2) (c : BitVec 1) (q : Half16) : (s.writeBlock t c q).namelen = s.namelen := rfl
@[simp] theorem State.writeBlock_ftype (s : State) (t : BitVec 2) (c : BitVec 1) (q : Half16) : (s.writeBlock t c q).ftype = s.ftype := rfl
@[simp] theorem State.writeBlock_seqst (s : State) (t : BitVec 2) (c : BitVec 1) (q : Half16) : (s.writeBlock t c q).seqst = s.seqst := rfl
@[simp] theorem State.writeBlock_blk (s : State) (t : BitVec 2) (c : BitVec 1) (q : Half16) : (s.writeBlock t c q).blk = s.blk := rfl
@[simp] theorem State.writeBlock_pm (s : State) (t : BitVec 2) (c : BitVec 1) (q : Half16) : (s.writeBlock t c q).pm = s.pm := rfl
@[simp] theorem State.writeBlock_name (s : State) (t : BitVec 2) (c : BitVec 1) (q : Half16) : (s.writeBlock t c q).name = s.name := rfl
@[simp] theorem State.writeBlock_pb (s : State) (t : BitVec 2) (c : BitVec 1) (q : Half16) : (s.writeBlock t c q).pb = s.pb := rfl
@[simp] theorem State.writeBlock_fb (s : State) (t : BitVec 2) (c : BitVec 1) (q : Half16) : (s.writeBlock t c q).fb = (s.fb.writeRun 0 (s.blockFrame t c q)) := rfl
@[simp] theorem State.writeBlock_sb (s : State) (t : BitVec 2) (c : BitVec 1) (q : Half16) : (s.writeBlock t c q).sb = (s.sb ++ render s.params ((blockBits s.params.blockTrailGap (s.blockFrame t c q)).map bitPulse)) := rfl
@[simp] theorem State.writeBlock_pt (s : State) (t : BitVec 2) (c : BitVec 1) (q : Half16) : (s.writeBlock t c q).pt = (s.pt ++ (blockBits s.params.blockTrailGap (s.blockFrame t c q)).map bitPulse) := rfl
@[simp] theorem State.writeBlock_dt (s : State) (t : BitVec 2) (c : BitVec 1) (q : Half16) : (s.writeBlock t c q).dt = (if s.dbg then s.dt ++ [⟨blockTag t, q, c, s.blockFrame t c q⟩] else s.dt) := rfl
@[simp] theorem State.writeBlock_clk (s : State) (t : BitVec 2) (c : BitVec 1) (q : Half16) : (s.writeBlock t c q).clk = s.clk := rfl
@[simp] theorem State.writeBlock_clkReads (s : State) (t : BitVec 2) (c : BitVec 1) (q : Half16) : (s.writeBlock t c q).clkReads = s.clkReads := rfl
@[simp] theorem State.writeBlock_host (s : State) (t : BitVec 2) (c : BitVec 1) (q : Half16) : (s.writeBlock t c q).host = s.host := rfl
@[simp] theorem State.writeBlock_lastRead (s : State) (t : BitVec 2) (c : BitVec 1) (q : Half16) : (s.writeBlock t c q).lastRead = s.lastRead := rfl
@[simp] theorem State.writeBlock_params (s : State) (t : BitVec 2) (c : BitVec 1) (q : Half16) : (s.writeBlock t c q).params = s.params := rfl

/-! ### loadChunk -/

@[simp] theorem State.loadChunk_status (s : State) (k : Nat) : (s.loadChunk k).status = s.status := by
  simp only [State.loadChunk]
@[simp] theorem State.loadChunk_ctrl (s : State) (k : Nat) : (s.loadChunk k).ctrl = s.ctrl := by
  simp only [State.loadChunk]
@[simp] theorem State.loadChunk_crc (s : State) (k : Nat) : (s.loadChunk k).crc = s.crc := by
  simp only [State.loadChunk]
@[simp] theorem State.loadChunk_plen (s : State) (k : Nat) : (s.loadChunk k).plen = s.plen := by
  simp only [State.loadChunk]
@[simp] theorem State.loadChunk_namelen (s : State) (k : Nat) : (s.loadChunk k).namelen = s.namelen := by
  simp only [State.loadChunk]
@[simp] theorem State.loadChunk_ftype (s : State) (k : Nat) : (s.loadChunk k).ftype = s.ftype := by
  simp only [State.loadChunk]
@[simp] theorem State.loadChunk_seqst (s : State) (k : Nat) : (s.loadChunk k).seqst = s.seqst := by
  simp only [State.loadChunk]
@[simp] theorem State.loadChunk_blk (s : State) (k : Nat) : (s.loadChunk k).blk = s.blk := by
  simp only [State.loadChunk]
@[simp] theorem State.loadChunk_pm (s : State) (k : Nat) : (s.loadChunk k).pm = s.pm := by
  simp only [State.loadChunk]
@[simp] theorem State.loadChunk_name (s : State) (k : Nat) : (s.loadChunk k).name = s.name := by
  simp only [State.loadChunk]
@[simp] theorem State.loadChunk_pb (s : State) (k : Nat) : (s.loadChunk k).pb = (s.pb.writeRun 0 (s.chunk k)) := by
  simp only [State.loadChunk]
@[simp] theorem State.loadChunk_fb (s : State) (k : Nat) : (s.loadChunk k).fb = s.fb := by
  simp only [State.loadChunk]
@[simp] theorem State.loadChunk_sb (s : State) (k : Nat) : (s.loadChunk k).sb = s.sb := by
  simp only [State.loadChunk]
@[simp] theorem State.loadChunk_pt (s : State) (k : Nat) : (s.loadChunk k).pt = s.pt := by
  simp only [State.loadChunk]
@[simp] theorem State.loadChunk_dt (s : State) (k : Nat) : (s.loadChunk k).dt = s.dt := by
  simp only [State.loadChunk]
@[simp] theorem State.loadChunk_clk (s : State) (k : Nat) : (s.loadChunk k).clk = s.clk := by
  simp only [State.loadChunk]
@[simp] theorem State.loadChunk_clkReads (s : State) (k : Nat) : (s.loadChunk k).clkReads = s.clkReads := by
  simp only [State.loadChunk]
@[simp] theorem State.loadChunk_host (s : State) (k : Nat) : (s.loadChunk k).host = s.host := by
  simp only [State.loadChunk]
@[simp] theorem State.loadChunk_lastRead (s : State) (k : Nat) : (s.loadChunk k).lastRead = s.lastRead := by
  simp only [State.loadChunk]
@[simp] theorem State.loadChunk_params (s : State) (k : Nat) : (s.loadChunk k).params = s.params := by
  simp only [State.loadChunk]

/-! ### goto -/

@[simp] theorem State.goto_status (s : State) (q : SeqState) : (s.goto q).status = s.status := rfl
@[simp] theorem State.goto_ctrl (s : State) (q : SeqState) : (s.goto q).ctrl = s.ctrl := rfl
@[simp] theorem State.goto_crc (s : State) (q : SeqState) : (s.goto q).crc = s.crc := rfl
@[simp] theorem State.goto_plen (s : State) (q : SeqState) : (s.goto q).plen = s.plen := rfl
@[simp] theorem State.goto_namelen (s : State) (q : SeqState) : (s.goto q).namelen = s.namelen := rfl
@[simp] theorem State.goto_ftype (s : State) (q : SeqState) : (s.goto q).ftype = s.ftype := rfl
@[simp] theorem State.goto_seqst (s : State) (q : SeqState) : (s.goto q).seqst = (q) := rfl
@[simp] theorem State.goto_blk (s : State) (q : SeqState) : (s.goto q).blk = s.blk := rfl
@[simp] theorem State.goto_pm (s : State) (q : SeqState) : (s.goto q).pm = s.pm := rfl
@[simp] theorem State.goto_name (s : State) (q : SeqState) : (s.goto q).name = s.name := rfl
@[simp] theorem State.goto_pb (s : State) (q : SeqState) : (s.goto q).pb = s.pb := rfl
@[simp] theorem State.goto_fb (s : State) (q : SeqState) : (s.goto q).fb = s.fb := rfl
@[simp] theorem State.goto_sb (s : State) (q : SeqState) : (s.goto q).sb = s.sb := rfl
@[simp] theorem State.goto_pt (s : State) (q : SeqState) : (s.goto q).pt = s.pt := rfl
@[simp] theorem State.goto_dt (s : State) (q : SeqState) : (s.goto q).dt = s.dt := rfl
@[simp] theorem State.goto_clk (s : State) (q : SeqState) : (s.goto q).clk = s.clk := rfl
@[simp] theorem State.goto_clkReads (s : State) (q : SeqState) : (s.goto q).clkReads = s.clkReads := rfl
@[simp] theorem State.goto_host (s : State) (q : SeqState) : (s.goto q).host = s.host := rfl
@[simp] theorem State.goto_lastRead (s : State) (q : SeqState) : (s.goto q).lastRead = s.lastRead := rfl
@[simp] theorem State.goto_params (s : State) (q : SeqState) : (s.goto q).params = s.params := rfl

/-! ### setBlk -/

@[simp] theorem State.setBlk_status (s : State) (v : Half16) : (s.setBlk v).status = s.status := rfl
@[simp] theorem State.setBlk_ctrl (s : State) (v : Half16) : (s.setBlk v).ctrl = s.ctrl := rfl
@[simp] theorem State.setBlk_crc (s : State) (v : Half16) : (s.setBlk v).crc = s.crc := rfl
@[simp] theorem State.setBlk_plen (s : State) (v : Half16) : (s.setBlk v).plen = s.plen := rfl
@[simp] theorem State.setBlk_namelen (s : State) (v : Half16) : (s.setBlk v).namelen = s.namelen := rfl
@[simp] theorem State.setBlk_ftype (s : State) (v : Half16) : (s.setBlk v).ftype = s.ftype := rfl
@[simp] theorem State.setBlk_seqst (s : State) (v : Half16) : (s.setBlk v).seqst = s.seqst := rfl
@[simp] theorem State.setBlk_blk (s : State) (v : Half16) : (s.setBlk v).blk = (v) := rfl
@[simp] theorem State.setBlk_pm (s : State) (v : Half16) : (s.setBlk v).pm = s.pm := rfl
@[simp] theorem State.setBlk_name (s : State) (v : Half16) : (s.setBlk v).name = s.name := rfl
@[simp] theorem State.setBlk_pb (s : State) (v : Half16) : (s.setBlk v).pb = s.pb := rfl
@[simp] theorem State.setBlk_fb (s : State) (v : Half16) : (s.setBlk v).fb = s.fb := rfl
@[simp] theorem State.setBlk_sb (s : State) (v : Half16) : (s.setBlk v).sb = s.sb := rfl
@[simp] theorem State.setBlk_pt (s : State) (v : Half16) : (s.setBlk v).pt = s.pt := rfl
@[simp] theorem State.setBlk_dt (s : State) (v : Half16) : (s.setBlk v).dt = s.dt := rfl
@[simp] theorem State.setBlk_clk (s : State) (v : Half16) : (s.setBlk v).clk = s.clk := rfl
@[simp] theorem State.setBlk_clkReads (s : State) (v : Half16) : (s.setBlk v).clkReads = s.clkReads := rfl
@[simp] theorem State.setBlk_host (s : State) (v : Half16) : (s.setBlk v).host = s.host := rfl
@[simp] theorem State.setBlk_lastRead (s : State) (v : Half16) : (s.setBlk v).lastRead = s.lastRead := rfl
@[simp] theorem State.setBlk_params (s : State) (v : Half16) : (s.setBlk v).params = s.params := rfl

/-! ### withMoves -/

@[simp] theorem State.withMoves_status (s : State) (moves : List HostMove) : (s.withMoves moves).status = s.status := rfl
@[simp] theorem State.withMoves_ctrl (s : State) (moves : List HostMove) : (s.withMoves moves).ctrl = s.ctrl := rfl
@[simp] theorem State.withMoves_crc (s : State) (moves : List HostMove) : (s.withMoves moves).crc = s.crc := rfl
@[simp] theorem State.withMoves_plen (s : State) (moves : List HostMove) : (s.withMoves moves).plen = s.plen := rfl
@[simp] theorem State.withMoves_namelen (s : State) (moves : List HostMove) : (s.withMoves moves).namelen = s.namelen := rfl
@[simp] theorem State.withMoves_ftype (s : State) (moves : List HostMove) : (s.withMoves moves).ftype = s.ftype := rfl
@[simp] theorem State.withMoves_seqst (s : State) (moves : List HostMove) : (s.withMoves moves).seqst = s.seqst := rfl
@[simp] theorem State.withMoves_blk (s : State) (moves : List HostMove) : (s.withMoves moves).blk = s.blk := rfl
@[simp] theorem State.withMoves_pm (s : State) (moves : List HostMove) : (s.withMoves moves).pm = s.pm := rfl
@[simp] theorem State.withMoves_name (s : State) (moves : List HostMove) : (s.withMoves moves).name = s.name := rfl
@[simp] theorem State.withMoves_pb (s : State) (moves : List HostMove) : (s.withMoves moves).pb = s.pb := rfl
@[simp] theorem State.withMoves_fb (s : State) (moves : List HostMove) : (s.withMoves moves).fb = s.fb := rfl
@[simp] theorem State.withMoves_sb (s : State) (moves : List HostMove) : (s.withMoves moves).sb = s.sb := rfl
@[simp] theorem State.withMoves_pt (s : State) (moves : List HostMove) : (s.withMoves moves).pt = s.pt := rfl
@[simp] theorem State.withMoves_dt (s : State) (moves : List HostMove) : (s.withMoves moves).dt = s.dt := rfl
@[simp] theorem State.withMoves_clk (s : State) (moves : List HostMove) : (s.withMoves moves).clk = s.clk := rfl
@[simp] theorem State.withMoves_clkReads (s : State) (moves : List HostMove) : (s.withMoves moves).clkReads = s.clkReads := rfl
@[simp] theorem State.withMoves_host (s : State) (moves : List HostMove) : (s.withMoves moves).host = (moves) := rfl
@[simp] theorem State.withMoves_lastRead (s : State) (moves : List HostMove) : (s.withMoves moves).lastRead = s.lastRead := rfl
@[simp] theorem State.withMoves_params (s : State) (moves : List HostMove) : (s.withMoves moves).params = s.params := rfl

/-! ### clear -/

@[simp] theorem State.clear_status (s : State) : (s.clear).status = (0x00#8) := rfl
@[simp] theorem State.clear_ctrl (s : State) : (s.clear).ctrl = s.ctrl := rfl
@[simp] theorem State.clear_crc (s : State) : (s.clear).crc = s.crc := rfl
@[simp] theorem State.clear_plen (s : State) : (s.clear).plen = s.plen := rfl
@[simp] theorem State.clear_namelen (s : State) : (s.clear).namelen = s.namelen := rfl
@[simp] theorem State.clear_ftype (s : State) : (s.clear).ftype = s.ftype := rfl
@[simp] theorem State.clear_seqst (s : State) : (s.clear).seqst = (.idle) := rfl
@[simp] theorem State.clear_blk (s : State) : (s.clear).blk = (0#16) := rfl
@[simp] theorem State.clear_pm (s : State) : (s.clear).pm = s.pm := rfl
@[simp] theorem State.clear_name (s : State) : (s.clear).name = s.name := rfl
@[simp] theorem State.clear_pb (s : State) : (s.clear).pb = s.pb := rfl
@[simp] theorem State.clear_fb (s : State) : (s.clear).fb = s.fb := rfl
@[simp] theorem State.clear_sb (s : State) : (s.clear).sb = ([]) := rfl
@[simp] theorem State.clear_pt (s : State) : (s.clear).pt = ([]) := rfl
@[simp] theorem State.clear_dt (s : State) : (s.clear).dt = s.dt := rfl
@[simp] theorem State.clear_clk (s : State) : (s.clear).clk = s.clk := rfl
@[simp] theorem State.clear_clkReads (s : State) : (s.clear).clkReads = s.clkReads := rfl
@[simp] theorem State.clear_host (s : State) : (s.clear).host = s.host := rfl
@[simp] theorem State.clear_lastRead (s : State) : (s.clear).lastRead = s.lastRead := rfl
@[simp] theorem State.clear_params (s : State) : (s.clear).params = s.params := rfl

/-! ### afterClockSample -/

@[simp] theorem State.afterClockSample_status (s : State) : (s.afterClockSample).status = s.status := by
  unfold State.afterClockSample; split <;> simp_all
@[simp] theorem State.afterClockSample_ctrl (s : State) : (s.afterClockSample).ctrl = s.ctrl := by
  unfold State.afterClockSample; split <;> simp_all
@[simp] theorem State.afterClockSample_crc (s : State) : (s.afterClockSample).crc = s.crc := by
  unfold State.afterClockSample; split <;> simp_all
@[simp] theorem State.afterClockSample_plen (s : State) : (s.afterClockSample).plen = s.plen := by
  unfold State.afterClockSample; split <;> simp_all
@[simp] theorem State.afterClockSample_namelen (s : State) : (s.afterClockSample).namelen = s.namelen := by
  unfold State.afterClockSample; split <;> simp_all
@[simp] theorem State.afterClockSample_ftype (s : State) : (s.afterClockSample).ftype = s.ftype := by
  unfold State.afterClockSample; split <;> simp_all
@[simp] theorem State.afterClockSample_seqst (s : State) : (s.afterClockSample).seqst = s.seqst := by
  unfold State.afterClockSample; split <;> simp_all
@[simp] theorem State.afterClockSample_blk (s : State) : (s.afterClockSample).blk = s.blk := by
  unfold State.afterClockSample; split <;> simp_all
@[simp] theorem State.afterClockSample_pm (s : State) : (s.afterClockSample).pm = s.pm := by
  unfold State.afterClockSample; split <;> simp_all
@[simp] theorem State.afterClockSample_name (s : State) : (s.afterClockSample).name = s.name := by
  unfold State.afterClockSample; split <;> simp_all
@[simp] theorem State.afterClockSample_pb (s : State) : (s.afterClockSample).pb = s.pb := by
  unfold State.afterClockSample; split <;> simp_all
@[simp] theorem State.afterClockSample_fb (s : State) : (s.afterClockSample).fb = s.fb := by
  unfold State.afterClockSample; split <;> simp_all
@[simp] theorem State.afterClockSample_sb (s : State) : (s.afterClockSample).sb = s.sb := by
  unfold State.afterClockSample; split <;> simp_all
@[simp] theorem State.afterClockSample_pt (s : State) : (s.afterClockSample).pt = s.pt := by
  unfold State.afterClockSample; split <;> simp_all
@[simp] theorem State.afterClockSample_dt (s : State) : (s.afterClockSample).dt = s.dt := by
  unfold State.afterClockSample; split <;> simp_all
@[simp] theorem State.afterClockSample_clk (s : State) : (s.afterClockSample).clk = s.clk.tail := by
  unfold State.afterClockSample; split <;> simp_all
@[simp] theorem State.afterClockSample_clkReads (s : State) : (s.afterClockSample).clkReads = (if s.clk = [] then s.clkReads + 1 else s.clkReads) := by
  unfold State.afterClockSample; split <;> simp_all
@[simp] theorem State.afterClockSample_host (s : State) : (s.afterClockSample).host = s.host := by
  unfold State.afterClockSample; split <;> simp_all
@[simp] theorem State.afterClockSample_lastRead (s : State) : (s.afterClockSample).lastRead = s.lastRead := by
  unfold State.afterClockSample; split <;> simp_all
@[simp] theorem State.afterClockSample_params (s : State) : (s.afterClockSample).params = s.params := by
  unfold State.afterClockSample; split <;> simp_all

/-! ### buildRecord -/

@[simp] theorem State.buildRecord_status (s : State) (tag4 : List Byte) : (s.buildRecord tag4).status = s.status := by
  simp [State.buildRecord]
@[simp] theorem State.buildRecord_ctrl (s : State) (tag4 : List Byte) : (s.buildRecord tag4).ctrl = s.ctrl := by
  simp [State.buildRecord]
@[simp] theorem State.buildRecord_crc (s : State) (tag4 : List Byte) : (s.buildRecord tag4).crc = s.crc := by
  simp [State.buildRecord]
@[simp] theorem State.buildRecord_plen (s : State) (tag4 : List Byte) : (s.buildRecord tag4).plen = s.plen := by
  simp [State.buildRecord]
@[simp] theorem State.buildRecord_namelen (s : State) (tag4 : List Byte) : (s.buildRecord tag4).namelen = s.namelen := by
  simp [State.buildRecord]
@[simp] theorem State.buildRecord_ftype (s : State) (tag4 : List Byte) : (s.buildRecord tag4).ftype = s.ftype := by
  simp [State.buildRecord]
@[simp] theorem State.buildRecord_seqst (s : State) (tag4 : List Byte) : (s.buildRecord tag4).seqst = s.seqst := by
  simp [State.buildRecord]
@[simp] theorem State.buildRecord_blk (s : State) (tag4 : List Byte) : (s.buildRecord tag4).blk = s.blk := by
  simp [State.buildRecord]
@[simp] theorem State.buildRecord_pm (s : State) (tag4 : List Byte) : (s.buildRecord tag4).pm = s.pm := by
  simp [State.buildRecord]
@[simp] theorem State.buildRecord_name (s : State) (tag4 : List Byte) : (s.buildRecord tag4).name = s.name := by
  simp [State.buildRecord]
@[simp] theorem State.buildRecord_pb (s : State) (tag4 : List Byte) : (s.buildRecord tag4).pb = (s.pb.writeRun 0 (s.recordNow tag4)) := by
  simp [State.buildRecord]
@[simp] theorem State.buildRecord_fb (s : State) (tag4 : List Byte) : (s.buildRecord tag4).fb = s.fb := by
  simp [State.buildRecord]
@[simp] theorem State.buildRecord_sb (s : State) (tag4 : List Byte) : (s.buildRecord tag4).sb = s.sb := by
  simp [State.buildRecord]
@[simp] theorem State.buildRecord_pt (s : State) (tag4 : List Byte) : (s.buildRecord tag4).pt = s.pt := by
  simp [State.buildRecord]
@[simp] theorem State.buildRecord_dt (s : State) (tag4 : List Byte) : (s.buildRecord tag4).dt = s.dt := by
  simp [State.buildRecord]
@[simp] theorem State.buildRecord_clk (s : State) (tag4 : List Byte) : (s.buildRecord tag4).clk = s.clk.tail := by
  simp [State.buildRecord]
@[simp] theorem State.buildRecord_clkReads (s : State) (tag4 : List Byte) : (s.buildRecord tag4).clkReads = (if s.clk = [] then s.clkReads + 1 else s.clkReads) := by
  simp [State.buildRecord]
@[simp] theorem State.buildRecord_host (s : State) (tag4 : List Byte) : (s.buildRecord tag4).host = s.host := by
  simp [State.buildRecord]
@[simp] theorem State.buildRecord_lastRead (s : State) (tag4 : List Byte) : (s.buildRecord tag4).lastRead = s.lastRead := by
  simp [State.buildRecord]
@[simp] theorem State.buildRecord_params (s : State) (tag4 : List Byte) : (s.buildRecord tag4).params = s.params := by
  simp [State.buildRecord]

/-- A chunk depends on the program and its length alone (R120). -/
theorem State.chunk_congr {s t : State} (hp : s.plen = t.plen) (hm : s.pm = t.pm) (k : Nat) : s.chunk k = t.chunk k := by
  simp only [State.chunk, State.readByte, State.buffer, hp, hm]

/-! ### What is computed from fields an update leaves alone -/

@[simp] theorem State.setDone_crcMode (s : State) (b : Bool) : (s.setDone b).crcMode = s.crcMode := by
  simp [State.crcMode]
@[simp] theorem State.setDone_dbg (s : State) (b : Bool) : (s.setDone b).dbg = s.dbg := by
  simp [State.dbg]
@[simp] theorem State.setDone_blockCount (s : State) (b : Bool) : (s.setDone b).blockCount = s.blockCount := by
  simp [State.blockCount]
@[simp] theorem State.setDone_chunk (s : State) (b : Bool) (k : Nat) : (s.setDone b).chunk k = s.chunk k := 
  State.chunk_congr (by simp) (by simp) k

@[simp] theorem State.setErr_crcMode (s : State) (e : BitVec 3) : (s.setErr e).crcMode = s.crcMode := by
  simp [State.crcMode]
@[simp] theorem State.setErr_dbg (s : State) (e : BitVec 3) : (s.setErr e).dbg = s.dbg := by
  simp [State.dbg]
@[simp] theorem State.setErr_blockCount (s : State) (e : BitVec 3) : (s.setErr e).blockCount = s.blockCount := by
  simp [State.blockCount]
@[simp] theorem State.setErr_chunk (s : State) (e : BitVec 3) (k : Nat) : (s.setErr e).chunk k = s.chunk k := 
  State.chunk_congr (by simp) (by simp) k

@[simp] theorem State.clearStatus_crcMode (s : State) : (s.clearStatus).crcMode = s.crcMode := by
  simp [State.crcMode]
@[simp] theorem State.clearStatus_dbg (s : State) : (s.clearStatus).dbg = s.dbg := by
  simp [State.dbg]
@[simp] theorem State.clearStatus_blockCount (s : State) : (s.clearStatus).blockCount = s.blockCount := by
  simp [State.blockCount]
@[simp] theorem State.clearStatus_chunk (s : State) (k : Nat) : (s.clearStatus).chunk k = s.chunk k := 
  State.chunk_congr (by simp) (by simp) k

@[simp] theorem State.emit_crcMode (s : State) (ds : List Duration) : (s.emit ds).crcMode = s.crcMode := by
  simp [State.crcMode]
@[simp] theorem State.emit_dbg (s : State) (ds : List Duration) : (s.emit ds).dbg = s.dbg := by
  simp [State.dbg]
@[simp] theorem State.emit_err (s : State) (ds : List Duration) : (s.emit ds).err = s.err := by
  simp [State.err]
@[simp] theorem State.emit_done (s : State) (ds : List Duration) : (s.emit ds).done = s.done := by
  simp [State.done]
@[simp] theorem State.emit_busy (s : State) (ds : List Duration) : (s.emit ds).busy = s.busy := by
  simp [State.busy]
@[simp] theorem State.emit_blockCount (s : State) (ds : List Duration) : (s.emit ds).blockCount = s.blockCount := by
  simp [State.blockCount]
@[simp] theorem State.emit_chunk (s : State) (ds : List Duration) (k : Nat) : (s.emit ds).chunk k = s.chunk k := 
  State.chunk_congr (by simp) (by simp) k

@[simp] theorem State.emitBits_crcMode (s : State) (bs : List Bool) : (s.emitBits bs).crcMode = s.crcMode := by
  simp [State.crcMode]
@[simp] theorem State.emitBits_dbg (s : State) (bs : List Bool) : (s.emitBits bs).dbg = s.dbg := by
  simp [State.dbg]
@[simp] theorem State.emitBits_err (s : State) (bs : List Bool) : (s.emitBits bs).err = s.err := by
  simp [State.err]
@[simp] theorem State.emitBits_done (s : State) (bs : List Bool) : (s.emitBits bs).done = s.done := by
  simp [State.done]
@[simp] theorem State.emitBits_busy (s : State) (bs : List Bool) : (s.emitBits bs).busy = s.busy := by
  simp [State.busy]
@[simp] theorem State.emitBits_blockCount (s : State) (bs : List Bool) : (s.emitBits bs).blockCount = s.blockCount := by
  simp [State.blockCount]
@[simp] theorem State.emitBits_chunk (s : State) (bs : List Bool) (k : Nat) : (s.emitBits bs).chunk k = s.chunk k := 
  State.chunk_congr (by simp) (by simp) k

@[simp] theorem State.storeFrame_crcMode (s : State) (t : BitVec 2) (c : BitVec 1) (q : Half16) : (s.storeFrame t c q).crcMode = s.crcMode := by
  simp [State.crcMode]
@[simp] theorem State.storeFrame_dbg (s : State) (t : BitVec 2) (c : BitVec 1) (q : Half16) : (s.storeFrame t c q).dbg = s.dbg := by
  simp [State.dbg]
@[simp] theorem State.storeFrame_err (s : State) (t : BitVec 2) (c : BitVec 1) (q : Half16) : (s.storeFrame t c q).err = s.err := by
  simp [State.err]
@[simp] theorem State.storeFrame_done (s : State) (t : BitVec 2) (c : BitVec 1) (q : Half16) : (s.storeFrame t c q).done = s.done := by
  simp [State.done]
@[simp] theorem State.storeFrame_busy (s : State) (t : BitVec 2) (c : BitVec 1) (q : Half16) : (s.storeFrame t c q).busy = s.busy := by
  simp [State.busy]
@[simp] theorem State.storeFrame_blockCount (s : State) (t : BitVec 2) (c : BitVec 1) (q : Half16) : (s.storeFrame t c q).blockCount = s.blockCount := by
  simp [State.blockCount]
@[simp] theorem State.storeFrame_chunk (s : State) (t : BitVec 2) (c : BitVec 1) (q : Half16) (k : Nat) : (s.storeFrame t c q).chunk k = s.chunk k := 
  State.chunk_congr (by simp) (by simp) k

@[simp] theorem State.writeBlock_crcMode (s : State) (t : BitVec 2) (c : BitVec 1) (q : Half16) : (s.writeBlock t c q).crcMode = s.crcMode := by
  simp [State.crcMode]
@[simp] theorem State.writeBlock_dbg (s : State) (t : BitVec 2) (c : BitVec 1) (q : Half16) : (s.writeBlock t c q).dbg = s.dbg := by
  simp [State.dbg]
@[simp] theorem State.writeBlock_err (s : State) (t : BitVec 2) (c : BitVec 1) (q : Half16) : (s.writeBlock t c q).err = s.err := by
  simp [State.err]
@[simp] theorem State.writeBlock_done (s : State) (t : BitVec 2) (c : BitVec 1) (q : Half16) : (s.writeBlock t c q).done = s.done := by
  simp [State.done]
@[simp] theorem State.writeBlock_busy (s : State) (t : BitVec 2) (c : BitVec 1) (q : Half16) : (s.writeBlock t c q).busy = s.busy := by
  simp [State.busy]
@[simp] theorem State.writeBlock_blockCount (s : State) (t : BitVec 2) (c : BitVec 1) (q : Half16) : (s.writeBlock t c q).blockCount = s.blockCount := by
  simp [State.blockCount]
@[simp] theorem State.writeBlock_chunk (s : State) (t : BitVec 2) (c : BitVec 1) (q : Half16) (k : Nat) : (s.writeBlock t c q).chunk k = s.chunk k := 
  State.chunk_congr (by simp) (by simp) k

@[simp] theorem State.loadChunk_crcMode (s : State) (k : Nat) : (s.loadChunk k).crcMode = s.crcMode := by
  simp [State.crcMode]
@[simp] theorem State.loadChunk_dbg (s : State) (k : Nat) : (s.loadChunk k).dbg = s.dbg := by
  simp [State.dbg]
@[simp] theorem State.loadChunk_err (s : State) (k : Nat) : (s.loadChunk k).err = s.err := by
  simp [State.err]
@[simp] theorem State.loadChunk_done (s : State) (k : Nat) : (s.loadChunk k).done = s.done := by
  simp [State.done]
@[simp] theorem State.loadChunk_busy (s : State) (k : Nat) : (s.loadChunk k).busy = s.busy := by
  simp [State.busy]
@[simp] theorem State.loadChunk_blockCount (s : State) (k : Nat) : (s.loadChunk k).blockCount = s.blockCount := by
  simp [State.blockCount]
@[simp] theorem State.loadChunk_chunk (s : State) (j : Nat) (k : Nat) : (s.loadChunk j).chunk k = s.chunk k := 
  State.chunk_congr (by simp) (by simp) k

@[simp] theorem State.goto_crcMode (s : State) (q : SeqState) : (s.goto q).crcMode = s.crcMode := by
  simp [State.crcMode]
@[simp] theorem State.goto_dbg (s : State) (q : SeqState) : (s.goto q).dbg = s.dbg := by
  simp [State.dbg]
@[simp] theorem State.goto_err (s : State) (q : SeqState) : (s.goto q).err = s.err := by
  simp [State.err]
@[simp] theorem State.goto_done (s : State) (q : SeqState) : (s.goto q).done = s.done := by
  simp [State.done]
@[simp] theorem State.goto_busy (s : State) (q : SeqState) : (s.goto q).busy = s.busy := by
  simp [State.busy]
@[simp] theorem State.goto_blockCount (s : State) (q : SeqState) : (s.goto q).blockCount = s.blockCount := by
  simp [State.blockCount]
@[simp] theorem State.goto_chunk (s : State) (q : SeqState) (k : Nat) : (s.goto q).chunk k = s.chunk k := 
  State.chunk_congr (by simp) (by simp) k

@[simp] theorem State.setBlk_crcMode (s : State) (v : Half16) : (s.setBlk v).crcMode = s.crcMode := by
  simp [State.crcMode]
@[simp] theorem State.setBlk_dbg (s : State) (v : Half16) : (s.setBlk v).dbg = s.dbg := by
  simp [State.dbg]
@[simp] theorem State.setBlk_err (s : State) (v : Half16) : (s.setBlk v).err = s.err := by
  simp [State.err]
@[simp] theorem State.setBlk_done (s : State) (v : Half16) : (s.setBlk v).done = s.done := by
  simp [State.done]
@[simp] theorem State.setBlk_busy (s : State) (v : Half16) : (s.setBlk v).busy = s.busy := by
  simp [State.busy]
@[simp] theorem State.setBlk_blockCount (s : State) (v : Half16) : (s.setBlk v).blockCount = s.blockCount := by
  simp [State.blockCount]
@[simp] theorem State.setBlk_chunk (s : State) (v : Half16) (k : Nat) : (s.setBlk v).chunk k = s.chunk k := 
  State.chunk_congr (by simp) (by simp) k

@[simp] theorem State.withMoves_crcMode (s : State) (moves : List HostMove) : (s.withMoves moves).crcMode = s.crcMode := by
  simp [State.crcMode]
@[simp] theorem State.withMoves_dbg (s : State) (moves : List HostMove) : (s.withMoves moves).dbg = s.dbg := by
  simp [State.dbg]
@[simp] theorem State.withMoves_err (s : State) (moves : List HostMove) : (s.withMoves moves).err = s.err := by
  simp [State.err]
@[simp] theorem State.withMoves_done (s : State) (moves : List HostMove) : (s.withMoves moves).done = s.done := by
  simp [State.done]
@[simp] theorem State.withMoves_busy (s : State) (moves : List HostMove) : (s.withMoves moves).busy = s.busy := by
  simp [State.busy]
@[simp] theorem State.withMoves_blockCount (s : State) (moves : List HostMove) : (s.withMoves moves).blockCount = s.blockCount := by
  simp [State.blockCount]
@[simp] theorem State.withMoves_chunk (s : State) (moves : List HostMove) (k : Nat) : (s.withMoves moves).chunk k = s.chunk k := 
  State.chunk_congr (by simp) (by simp) k

@[simp] theorem State.clear_crcMode (s : State) : (s.clear).crcMode = s.crcMode := by
  simp [State.crcMode]
@[simp] theorem State.clear_dbg (s : State) : (s.clear).dbg = s.dbg := by
  simp [State.dbg]
@[simp] theorem State.clear_blockCount (s : State) : (s.clear).blockCount = s.blockCount := by
  simp [State.blockCount]
@[simp] theorem State.clear_chunk (s : State) (k : Nat) : (s.clear).chunk k = s.chunk k := 
  State.chunk_congr (by simp) (by simp) k

@[simp] theorem State.afterClockSample_crcMode (s : State) : (s.afterClockSample).crcMode = s.crcMode := by
  simp [State.crcMode]
@[simp] theorem State.afterClockSample_dbg (s : State) : (s.afterClockSample).dbg = s.dbg := by
  simp [State.dbg]
@[simp] theorem State.afterClockSample_err (s : State) : (s.afterClockSample).err = s.err := by
  simp [State.err]
@[simp] theorem State.afterClockSample_done (s : State) : (s.afterClockSample).done = s.done := by
  simp [State.done]
@[simp] theorem State.afterClockSample_busy (s : State) : (s.afterClockSample).busy = s.busy := by
  simp [State.busy]
@[simp] theorem State.afterClockSample_blockCount (s : State) : (s.afterClockSample).blockCount = s.blockCount := by
  simp [State.blockCount]
@[simp] theorem State.afterClockSample_chunk (s : State) (k : Nat) : (s.afterClockSample).chunk k = s.chunk k := 
  State.chunk_congr (by simp) (by simp) k

@[simp] theorem State.buildRecord_crcMode (s : State) (tag4 : List Byte) : (s.buildRecord tag4).crcMode = s.crcMode := by
  simp [State.crcMode]
@[simp] theorem State.buildRecord_dbg (s : State) (tag4 : List Byte) : (s.buildRecord tag4).dbg = s.dbg := by
  simp [State.dbg]
@[simp] theorem State.buildRecord_err (s : State) (tag4 : List Byte) : (s.buildRecord tag4).err = s.err := by
  simp [State.err]
@[simp] theorem State.buildRecord_done (s : State) (tag4 : List Byte) : (s.buildRecord tag4).done = s.done := by
  simp [State.done]
@[simp] theorem State.buildRecord_busy (s : State) (tag4 : List Byte) : (s.buildRecord tag4).busy = s.busy := by
  simp [State.busy]
@[simp] theorem State.buildRecord_blockCount (s : State) (tag4 : List Byte) : (s.buildRecord tag4).blockCount = s.blockCount := by
  simp [State.blockCount]
@[simp] theorem State.buildRecord_chunk (s : State) (tag4 : List Byte) (k : Nat) : (s.buildRecord tag4).chunk k = s.chunk k := 
  State.chunk_congr (by simp) (by simp) k

end Sys2Proof.Machine
end

