-- ==== Sys2Proof/Laws/Ops.lean ====
section
/-! SUPPORT. Once for each shared operation: everything it can do. -/

namespace Sys2Proof.Machine

/-- A command other than `RESET` either runs, with no error held, or leaves the state as it was. -/
theorem State.unlessError_next {s t : State} {run : State → Result} (h : s.unlessError run = .next t) :
    (s.err = 0#3 ∧ run s = .next t) ∨ (s.err ≠ 0#3 ∧ t = s) := by
  unfold State.unlessError at h
  split at h
  · exact .inl ⟨‹_›, h⟩
  · exact .inr ⟨‹_›, by simpa using h.symm⟩

theorem State.unlessError_run {s : State} (h : s.err = 0#3) (run : State → Result) : s.unlessError run = run s :=
  if_pos h

theorem State.unlessError_sticky {s : State} (h : s.err ≠ 0#3) (run : State → Result) :
    s.unlessError run = .next s := if_neg h

/-- An appending command that ends has not overrun the buffer. -/
theorem State.finish_next {s t : State} (h : s.finish = .next t) : t = s ∧ s.withinCapacity = true := by
  unfold State.finish at h
  split at h
  · exact ⟨by simpa using h.symm, ‹_›⟩
  · simp at h

theorem State.finish_eq_next_iff (s t : State) : s.finish = .next t ↔ s.withinCapacity = true ∧ t = s := by
  refine ⟨fun h => ⟨(State.finish_next h).2, (State.finish_next h).1⟩, ?_⟩
  rintro ⟨h, rfl⟩
  exact if_pos h

theorem State.finish_ok {s : State} (h : s.withinCapacity = true) : s.finish = .next s := if_pos h

theorem State.withinCapacity_iff (s : State) :
    s.withinCapacity = true ↔ ∀ n, s.params.sbCapacity = some n → s.sb.length ≤ n := by
  unfold State.withinCapacity
  split <;> simp_all

/-- Raising an error changes `STATUS` alone, and only while no error is held. -/
theorem State.raise_eq (s : State) (e : ErrCause) : s.raise e = if s.err = 0#3 then s.setErr e.code else s := rfl

@[simp] theorem State.setErr_err (s : State) (e : BitVec 3) : (s.setErr e).err = e := by
  revert e; simp only [State.err, State.setErr]; generalize s.status = x; revert x; decide

@[simp] theorem State.setErr_done (s : State) (e : BitVec 3) : (s.setErr e).done = s.done := by
  revert e; simp only [State.done, State.setErr]; generalize s.status = x; revert x; decide

@[simp] theorem State.setErr_busy (s : State) (e : BitVec 3) : (s.setErr e).busy = s.busy := by
  revert e; simp only [State.busy, State.setErr]; generalize s.status = x; revert x; decide

@[simp] theorem State.setDone_err (s : State) (b : Bool) : (s.setDone b).err = s.err := by
  simp only [State.err, State.setDone]; generalize s.status = x; revert b x; decide

@[simp] theorem State.setDone_done (s : State) (b : Bool) : (s.setDone b).done = b := by
  simp only [State.done, State.setDone]; generalize s.status = x; revert b x; decide

@[simp] theorem State.setDone_busy (s : State) (b : Bool) : (s.setDone b).busy = s.busy := by
  simp only [State.busy, State.setDone]; generalize s.status = x; revert b x; decide

/-- After `n` clock samples the first `n` draws are gone. -/
theorem State.repeat_afterClockSample_clk (s : State) (n : Nat) :
    (Nat.repeat State.afterClockSample n s).clk = s.clk.drop n := by
  induction n with
  | zero => rfl
  | succ n ih => rw [Nat.repeat, State.afterClockSample_clk, ih, List.tail_drop]

end Sys2Proof.Machine
end

