-- ==== Sys2Proof/Laws/Exec.lean ====
section
/-! SUPPORT. What `exec` runs for each command, in terms of the shared operations. -/

namespace Sys2Proof.Machine

theorem exec_reset (s : State) : exec .reset s = .next s.clear := rfl

theorem exec_crcinit (s : State) :
    exec .crcinit s = s.unlessError fun s => .next { s with crc := crcInit s.crcMode } := rfl

theorem exec_crcbyte (v : Byte) (s : State) :
    exec (.crcbyte v) s = s.unlessError fun s => .next { s with crc := crcUpdate s.crcMode s.crc v } := rfl

theorem exec_pulse (d : Duration) (s : State) :
    exec (.pulse d) s = s.unlessError fun s => (s.emit [d]).finish := rfl

theorem exec_bit (b : Bool) (s : State) :
    exec (.bit b) s = s.unlessError fun s => (s.emitBits [b]).finish := rfl

theorem exec_byte (v : Byte) (s : State) :
    exec (.byte v) s = s.unlessError fun s => (s.emitBits (byteBits v)).finish := rfl

theorem exec_sync (s : State) : exec .sync s = s.unlessError fun s => (s.emitBits syncField).finish := rfl

theorem exec_pre (s : State) : exec .pre s = s.unlessError fun s => (s.emitBits preamble).finish := rfl

theorem exec_post (s : State) : exec .post s = s.unlessError fun s => (s.emitBits postamble).finish := rfl

theorem exec_fgap (s : State) :
    exec .fgap s = s.unlessError fun s => (s.emitBits (gapBits Config.fileGapBytes)).finish := rfl

theorem exec_ibgap (n : BitVec 16) (s : State) :
    exec (.ibgap n) s = s.unlessError fun s => (s.emitBits (gapBits n.toNat)).finish := rfl

theorem exec_wrblk (t : BitVec 2) (c : BitVec 1) (q : Half16) (s : State) :
    exec (.wrblk t c q) s =
      s.unlessError fun s => if t = 3#2 then .next (s.raise .illArg) else (s.writeBlock t c q).finish := rfl

theorem exec_bldhdr (s : State) : exec .bldhdr s = s.unlessError fun s => .next (s.buildRecord headerTag) := rfl

theorem exec_bldftr (s : State) : exec .bldftr s = s.unlessError fun s => .next (s.buildRecord footerTag) := rfl

theorem exec_encode (s : State) :
    exec .encode s = s.unlessError fun s =>
      if s.plen = 0#32 then .next (s.raise .empty)
      else if 65535 < s.blockCount + 1 then .next (s.raise .length)
      else s.encodeFile.finish := rfl

theorem exec_norm (a : Byte) (s : State) :
    exec (.norm a) s = s.unlessError fun s =>
      .next { s with sb := normalizeSamples s.params.normRound a.toNat s.sb } := rfl

end Sys2Proof.Machine
end

