-- ==== Sys2Proof/Laws/Pulse.lean ====
section
/-! SUPPORT. Lengths and composition of what the pulse encoder and the framer emit. -/

namespace Sys2Proof.Machine

theorem length_of_shapeOf {table : List (Nat × List Byte)} {h : Nat} {l : List Byte}
    (e : shapeOf table h = some l) : l.length = h := by
  unfold shapeOf at e
  simpa using (Option.filter_eq_some_iff.mp e).2

/-- `RISE(h)` has exactly `h` bytes, whatever the shape (R89). -/
@[simp] theorem length_riseShape (p : Params) (h : Nat) : (riseShape p h).length = h := by
  unfold riseShape
  cases e : shapeOf p.riseTable h with
  | none => simp
  | some l => simpa using length_of_shapeOf e

/-- `FALL(h)` has exactly `h` bytes, whatever the shape (R89). -/
@[simp] theorem length_fallShape (p : Params) (h : Nat) : (fallShape p h).length = h := by
  unfold fallShape
  cases e : shapeOf p.fallTable h with
  | none => simp
  | some l => simpa using length_of_shapeOf e

@[simp] theorem length_pulseSamples (p : Params) (d : Duration) :
    (pulseSamples p d).length = (halfLengths p.halfPolicy d).1 + (halfLengths p.halfPolicy d).2 := by
  simp [pulseSamples]

@[simp] theorem render_nil (p : Params) : render p [] = [] := rfl

@[simp] theorem render_cons (p : Params) (d : Duration) (ds : List Duration) :
    render p (d :: ds) = pulseSamples p d ++ render p ds := rfl

@[simp] theorem render_append (p : Params) (ds es : List Duration) :
    render p (ds ++ es) = render p ds ++ render p es := by simp [render]

/-- Emitting twice is emitting once (R100). -/
theorem State.emit_emit (s : State) (ds es : List Duration) : (s.emit ds).emit es = s.emit (ds ++ es) := by
  simp [State.emit]

@[simp] theorem length_byteBits (v : Byte) : (byteBits v).length = 9 := by simp [byteBits]

@[simp] theorem length_syncField : syncField.length = 80 := by simp [syncField, Config.syncBits]

@[simp] theorem length_preamble : preamble.length = 19 := by simp [preamble]

@[simp] theorem length_postamble : postamble.length = 18 := by simp [postamble]

theorem length_flatMap_byteBits (l : List Byte) : (l.flatMap byteBits).length = 9 * l.length := by
  induction l with
  | nil => rfl
  | cons v l ih => simp [ih]; omega

@[simp] theorem length_gapBits (n : Nat) : (gapBits n).length = 9 * n := by
  rw [gapBits, length_flatMap_byteBits, List.length_replicate]

/-- A gap is `9n` one bits (R66). -/
theorem gapBits_eq (n : Nat) : gapBits n = List.replicate (9 * n) true := by
  induction n with
  | zero => rfl
  | succ n ih =>
    have : gapBits (n + 1) = byteBits 0xFF#8 ++ gapBits n := by simp [gapBits, List.replicate_succ]
    rw [this, ih, show 9 * (n + 1) = 9 + 9 * n by omega, ← List.replicate_append_replicate]
    rfl

theorem length_blockBits (g : Nat) (frame : List Byte) :
    (blockBits g frame).length = 117 + 9 * frame.length + 9 * g := by
  simp only [blockBits, List.length_append, length_flatMap_byteBits, length_syncField, length_preamble,
    length_postamble, length_gapBits]
  omega

@[simp] theorem length_frameBody (tag : Byte) (q : Half16) (c : BitVec 1) (payload : List Byte) :
    (frameBody tag q c payload).length = payload.length + 4 := by simp [frameBody]

@[simp] theorem length_frameOf (mode : CrcMode) (body : List Byte) :
    (frameOf mode body).length = body.length + 2 := by simp [frameOf]

/-- An appending command ends exactly when its samples fit. -/
theorem State.withinCapacity_emit (s : State) (ds : List Duration) :
    (s.emit ds).withinCapacity = true ↔
      ∀ n, s.params.sbCapacity = some n → s.sb.length + (render s.params ds).length ≤ n := by
  rw [State.withinCapacity_iff]; simp

end Sys2Proof.Machine
end

