-- ==== Sys2Proof/Laws/Effect.lean ====
section
/-! SUPPORT. Everything a command that ends can have done, said once. -/

namespace Sys2Proof.Machine

/-- What a command that ends has done, from the state before to the state after. -/
inductive Effect : Instr → State → State → Prop where
  | reset (s : State) : Effect .reset s s.clear
  | sticky (i : Instr) (s : State) : s.err ≠ 0#3 → i ≠ .reset → Effect i s s
  | crcinit (s : State) : s.err = 0#3 → Effect .crcinit s { s with crc := crcInit s.crcMode }
  | crcbyte (v : Byte) (s : State) : s.err = 0#3 → Effect (.crcbyte v) s { s with crc := crcUpdate s.crcMode s.crc v }
  | pulses (i : Instr) (ds : List Duration) (s : State) :
    s.err = 0#3 → pulsesOf i = some ds → (s.emit ds).withinCapacity = true → Effect i s (s.emit ds)
  | wrblkType (c : BitVec 1) (q : Half16) (s : State) : s.err = 0#3 → Effect (.wrblk 3#2 c q) s (s.setErr 4#3)
  | wrblk (t : BitVec 2) (c : BitVec 1) (q : Half16) (s : State) :
    s.err = 0#3 → t ≠ 3#2 → (s.writeBlock t c q).withinCapacity = true → Effect (.wrblk t c q) s (s.writeBlock t c q)
  | bldhdr (s : State) : s.err = 0#3 → Effect .bldhdr s (s.buildRecord headerTag)
  | bldftr (s : State) : s.err = 0#3 → Effect .bldftr s (s.buildRecord footerTag)
  | encodeEmpty (s : State) : s.err = 0#3 → s.plen = 0#32 → Effect .encode s (s.setErr 1#3)
  | encodeLength (s : State) : s.err = 0#3 → 16776704 < s.plen.toNat → Effect .encode s (s.setErr 2#3)
  | encode (s : State) : s.err = 0#3 → s.plen ≠ 0#32 → s.plen.toNat ≤ 16776704 →
    s.encodeFile.withinCapacity = true → Effect .encode s s.encodeFile
  | norm (a : Byte) (s : State) : s.err = 0#3 →
    Effect (.norm a) s { s with sb := normalizeSamples s.params.normRound a.toNat s.sb }

theorem State.setErr_of_raise {s : State} (h : s.err = 0#3) (e : ErrCause) : s.raise e = s.setErr e.code := if_pos h

/-- The longest legal program, as a bound on the block count and on `PLEN` (R142). -/
theorem State.tooLong_iff (s : State) : 65535 < s.blockCount + 1 ↔ 16776704 < s.plen.toNat := by
  unfold State.blockCount
  omega

/-- A command other than `RESET` does nothing while an error is held (60_exceptions.md R150). -/
theorem exec_of_error {i : Instr} {s : State} (h : s.err ≠ 0#3) (hi : i ≠ .reset) : exec i s = .next s := by
  cases i with
  | reset => exact absurd rfl hi
  | crcinit => exact (exec_crcinit s).trans (State.unlessError_sticky h _)
  | crcbyte v => exact (exec_crcbyte v s).trans (State.unlessError_sticky h _)
  | pulse d => exact (exec_pulse d s).trans (State.unlessError_sticky h _)
  | bit b => exact (exec_bit b s).trans (State.unlessError_sticky h _)
  | byte v => exact (exec_byte v s).trans (State.unlessError_sticky h _)
  | sync => exact (exec_sync s).trans (State.unlessError_sticky h _)
  | pre => exact (exec_pre s).trans (State.unlessError_sticky h _)
  | post => exact (exec_post s).trans (State.unlessError_sticky h _)
  | fgap => exact (exec_fgap s).trans (State.unlessError_sticky h _)
  | ibgap n => exact (exec_ibgap n s).trans (State.unlessError_sticky h _)
  | wrblk t c q => exact (exec_wrblk t c q s).trans (State.unlessError_sticky h _)
  | bldhdr => exact (exec_bldhdr s).trans (State.unlessError_sticky h _)
  | bldftr => exact (exec_bldftr s).trans (State.unlessError_sticky h _)
  | encode => exact (exec_encode s).trans (State.unlessError_sticky h _)
  | norm a => exact (exec_norm a s).trans (State.unlessError_sticky h _)

/-- The commands of the pulse encoder emit what the table of the spec gives them. -/
theorem exec_of_pulsesOf {i : Instr} {ds : List Duration} (h : pulsesOf i = some ds) {s : State} (he : s.err = 0#3) :
    exec i s = (s.emit ds).finish := by
  cases i with
  | pulse d => cases h; exact (exec_pulse d s).trans (State.unlessError_run he _)
  | bit b => cases h; exact (exec_bit b s).trans (State.unlessError_run he _)
  | byte v =>
    cases h
    refine ((exec_byte v s).trans (State.unlessError_run he _)).trans ?_
    have e : (byteBits v).map bitPulse = durations (frameBits v) := rfl
    rw [State.emitBits, e]
  | sync => cases h; exact (exec_sync s).trans (State.unlessError_run he _)
  | pre => cases h; exact (exec_pre s).trans (State.unlessError_run he _)
  | post => cases h; exact (exec_post s).trans (State.unlessError_run he _)
  | fgap =>
    cases h
    refine ((exec_fgap s).trans (State.unlessError_run he _)).trans ?_
    rw [State.emitBits, gapBits_eq]
    rfl
  | ibgap n =>
    cases h
    refine ((exec_ibgap n s).trans (State.unlessError_run he _)).trans ?_
    rw [State.emitBits, gapBits_eq]
    rfl
  | reset => simp [pulsesOf] at h
  | crcinit => simp [pulsesOf] at h
  | crcbyte v => simp [pulsesOf] at h
  | wrblk t c q => simp [pulsesOf] at h
  | bldhdr => simp [pulsesOf] at h
  | bldftr => simp [pulsesOf] at h
  | encode => simp [pulsesOf] at h
  | norm a => simp [pulsesOf] at h

/-- Everything a command that ends can have done. -/
theorem effect_of_exec {i : Instr} {s t : State} (h : exec i s = .next t) : Effect i s t := by
  by_cases hr : i = .reset
  · subst hr
    cases h
    exact .reset s
  by_cases he : s.err ≠ 0#3
  · rw [exec_of_error he hr] at h
    cases h
    exact .sticky i s he hr
  replace he : s.err = 0#3 := Decidable.not_not.mp he
  have emits : ∀ ds, pulsesOf i = some ds → Effect i s t := by
    intro ds hp
    rw [exec_of_pulsesOf hp he, State.finish_eq_next_iff] at h
    obtain ⟨hc, rfl⟩ := h
    exact .pulses i ds s he hp hc
  cases i with
  | reset => exact absurd rfl hr
  | crcinit =>
    rw [exec_crcinit, State.unlessError_run he] at h
    cases h
    exact .crcinit s he
  | crcbyte v =>
    rw [exec_crcbyte, State.unlessError_run he] at h
    cases h
    exact .crcbyte v s he
  | wrblk u c q =>
    rw [exec_wrblk, State.unlessError_run he] at h
    split at h
    · rename_i hu
      subst hu
      rw [State.setErr_of_raise he] at h
      cases h
      exact .wrblkType c q s he
    · obtain ⟨hc, rfl⟩ := (State.finish_eq_next_iff _ _).mp h
      exact .wrblk u c q s he ‹_› hc
  | bldhdr =>
    rw [exec_bldhdr, State.unlessError_run he] at h
    cases h
    exact .bldhdr s he
  | bldftr =>
    rw [exec_bldftr, State.unlessError_run he] at h
    cases h
    exact .bldftr s he
  | encode =>
    rw [exec_encode, State.unlessError_run he] at h
    split at h
    · rw [State.setErr_of_raise he] at h
      cases h
      exact .encodeEmpty s he ‹_›
    · split at h
      · rw [State.setErr_of_raise he] at h
        cases h
        exact .encodeLength s he (s.tooLong_iff.mp ‹_›)
      · rename_i hl
        rw [State.tooLong_iff] at hl
        obtain ⟨hc, rfl⟩ := (State.finish_eq_next_iff _ _).mp h
        exact .encode s he ‹_› (Nat.le_of_not_lt hl) hc
  | norm a =>
    rw [exec_norm, State.unlessError_run he] at h
    cases h
    exact .norm a s he
  | pulse d => exact emits _ rfl
  | bit b => exact emits _ rfl
  | byte v => exact emits _ rfl
  | sync => exact emits _ rfl
  | pre => exact emits _ rfl
  | post => exact emits _ rfl
  | fgap => exact emits _ rfl
  | ibgap n => exact emits _ rfl

/-- The skip test of `NORM` holds exactly of a flat buffer (R132). -/
theorem nearlyFlat_iff {mn mx : Nat} (h : mn ≤ mx) : nearlyFlat mn mx = true ↔ mx = mn := by
  have e : nearlyFlat mn mx = decide ((mx - mn) * 10 < 2 * 1) := rfl
  rw [e, decide_eq_true_iff]
  omega

/-- `NORM` keeps the number of samples (45_normalizer.md R135). -/
@[simp] theorem length_normalizeSamples (r : NormRound) (a : Nat) (sb : List Byte) :
    (normalizeSamples r a sb).length = sb.length := by
  unfold normalizeSamples
  split
  · rfl
  · dsimp only
    split <;> simp

end Sys2Proof.Machine
end

