-- ==== Sys2Proof/Laws/Memory.lean ====
section
/-! SUPPORT. The laws of buffer contents: what a read finds after a write, and that every write keeps the canonical form. -/

namespace Sys2Proof.Machine

@[simp] theorem Memory.get?_nil (a : Nat) : Memory.get? [] a = none := rfl

theorem Memory.get?_write (m : Memory) (a : Nat) (b : Byte) (x : Nat) :
    (m.write a b).get? x = if x = a then some b else m.get? x := by
  induction m with
  | nil => simp [Memory.write, Memory.get?, eq_comm]
  | cons e m ih =>
    obtain ⟨y, v⟩ := e
    unfold Memory.write
    split
    · by_cases h : x = a <;> simp_all [Memory.get?, eq_comm]
    · split
      · subst_vars; by_cases h : x = y <;> simp_all [Memory.get?, eq_comm]
      · by_cases h : y = x
        · subst h; simp_all [Memory.get?, eq_comm]
        · simp [Memory.get?, h, ih]

theorem Memory.mem_write {m : Memory} {a : Nat} {b : Byte} {e : Host.Cell} (h : e ∈ m.write a b) :
    e = (a, b) ∨ e ∈ m := by
  induction m with
  | nil => exact .inl (by simpa [Memory.write] using h)
  | cons y m ih =>
    unfold Memory.write at h
    split at h
    · simpa using h
    · split at h
      · rcases List.mem_cons.mp h with h | h <;> simp_all
      · rcases List.mem_cons.mp h with h | h
        · simp_all
        · rcases ih h with h | h <;> simp_all

theorem Memory.wf_write {m : Memory} (h : m.wf) (a : Nat) (b : Byte) : (m.write a b).wf := by
  induction m with
  | nil => simp [Memory.write, Memory.wf]
  | cons y m ih =>
    obtain ⟨hy, hm⟩ := List.pairwise_cons.mp h
    unfold Memory.write
    split
    · refine List.pairwise_cons.mpr ⟨?_, h⟩
      intro e he
      rcases List.mem_cons.mp he with rfl | he
      · assumption
      · exact Nat.lt_trans ‹_› (hy e he)
    · split
      · subst_vars; exact List.pairwise_cons.mpr ⟨hy, hm⟩
      · refine List.pairwise_cons.mpr ⟨fun e he => ?_, ih hm⟩
        rcases Memory.mem_write he with rfl | he
        · exact Nat.lt_of_le_of_ne (Nat.le_of_not_lt ‹_›) (Ne.symm ‹_›)
        · exact hy e he

theorem Memory.get?_writeRun (m : Memory) (a : Nat) (bs : List Byte) (x : Nat) :
    (m.writeRun a bs).get? x = if a ≤ x ∧ x < a + bs.length then bs[x - a]? else m.get? x := by
  induction bs generalizing m a with
  | nil =>
    have : ¬(a ≤ x ∧ x < a + ([] : List Byte).length) := by simp only [List.length_nil]; omega
    rw [if_neg this, Memory.writeRun]
  | cons b bs ih =>
    rw [Memory.writeRun, ih, Memory.get?_write]
    by_cases h : a = x
    · subst h; simp <;> (intros; omega)
    · simp only [List.length_cons]
      by_cases h2 : a < x
      · obtain ⟨d, rfl⟩ : ∃ d, x = a + 1 + d := ⟨x - (a + 1), by omega⟩
        have e1 : a + 1 + d - (a + 1) = d := by omega
        have e2 : a + 1 + d - a = d + 1 := by omega
        simp only [e1, e2, List.getElem?_cons_succ]
        repeat' split
        all_goals first | rfl | omega
      · repeat' split
        all_goals first | rfl | omega

theorem Memory.wf_writeRun {m : Memory} (h : m.wf) (a : Nat) (bs : List Byte) : (m.writeRun a bs).wf := by
  induction bs generalizing m a with
  | nil => exact h
  | cons b bs ih => exact ih (Memory.wf_write h a b) (a + 1)

theorem Memory.mem_writeRun {m : Memory} {a : Nat} {bs : List Byte} {e : Host.Cell} (h : e ∈ m.writeRun a bs) :
    (a ≤ e.1 ∧ e.1 < a + bs.length) ∨ e ∈ m := by
  induction bs generalizing m a with
  | nil => exact .inr h
  | cons b bs ih =>
    rcases ih h with h | h
    · exact .inl (by simp only [List.length_cons]; omega)
    · rcases Memory.mem_write h with rfl | h
      · exact .inl (by simp)
      · exact .inr h

theorem Memory.read_writeRun (w : Buffer) (m : Memory) (a : Nat) (bs : List Byte) (x : Nat) :
    (m.writeRun a bs).read w x = if a ≤ x ∧ x < a + bs.length then bs.getD (x - a) 0#8 else m.read w x := by
  unfold Memory.read
  rw [Memory.get?_writeRun]
  split
  · rename_i h
    have : x - a < bs.length := by omega
    simp [List.getD, List.getElem?_eq_getElem this]
  · rfl

@[simp] theorem Memory.length_readRun (w : Buffer) (m : Memory) (a n : Nat) : (m.readRun w a n).length = n := by
  simp [Memory.readRun]

/-- Reading back a run that has just been written gives its bytes. -/
theorem Memory.readRun_writeRun (w : Buffer) (m : Memory) (a : Nat) (bs : List Byte) :
    (m.writeRun a bs).readRun w a bs.length = bs := by
  apply List.ext_getElem (by simp)
  intro i h1 h2
  simp [Memory.readRun, Memory.read_writeRun, h2]

end Sys2Proof.Machine
end

