-- ==== Sys2Proof/Laws/PerInstr.lean ====
section
/-! SUPPORT. One lemma per constructor of Instr: its command word has the bits of its row of spec/opcode_table.json. -/

namespace Sys2Proof.Laws.TableRow

/-- The `mask` of an instruction's row of spec/opcode_table.json. -/
def mask : Instr → CmdWord
  | .reset => 0xFFFFFFFF#32
  | .crcinit => 0xFFFFFFFF#32
  | .crcbyte _ => 0xFFFFFF00#32
  | .pulse _ => 0xFFFF0000#32
  | .bit _ => 0xFFFFFFFE#32
  | .byte _ => 0xFFFFFF00#32
  | .sync => 0xFFFFFFFF#32
  | .pre => 0xFFFFFFFF#32
  | .post => 0xFFFFFFFF#32
  | .fgap => 0xFFFFFFFF#32
  | .ibgap _ => 0xFFFF0000#32
  | .wrblk _ _ _ => 0xFFF80000#32
  | .bldhdr => 0xFFFFFFFF#32
  | .bldftr => 0xFFFFFFFF#32
  | .encode => 0xFFFFFFFF#32
  | .norm _ => 0xFFFFFF00#32

/-- The `match` of an instruction's row of spec/opcode_table.json. -/
def bits : Instr → CmdWord
  | .reset => 0x01000000#32
  | .crcinit => 0x10000000#32
  | .crcbyte _ => 0x11000000#32
  | .pulse _ => 0x20000000#32
  | .bit _ => 0x21000000#32
  | .byte _ => 0x22000000#32
  | .sync => 0x23000000#32
  | .pre => 0x24000000#32
  | .post => 0x25000000#32
  | .fgap => 0x26000000#32
  | .ibgap _ => 0x27000000#32
  | .wrblk _ _ _ => 0x30000000#32
  | .bldhdr => 0x40000000#32
  | .bldftr => 0x41000000#32
  | .encode => 0x50000000#32
  | .norm _ => 0x60000000#32

/-- The command word of an instruction has the fixed bits of its row. -/
def Statement (i : Instr) : Prop := encode i &&& mask i = bits i

/-- A word is fixed by its row's bits as soon as each of its 32 bits is. -/
theorem of_bits {i : Instr} (h : ∀ k : Fin 32,
    ((if k.val < 24 then (operandsOf i).getLsbD k else (opcodeOf i).getLsbD (k - 24)) && (mask i).getLsbD k)
      = (bits i).getLsbD k) : Statement i := by
  apply BitVec.eq_of_getLsbD_eq
  intro k hk
  rw [BitVec.getLsbD_and, getLsbD_encode _ _ hk]
  exact h ⟨k, hk⟩

theorem reset : Statement .reset := rfl
theorem crcinit : Statement .crcinit := rfl
theorem crcbyte (v : Byte) : Statement (.crcbyte v) := of_bits (by
  simp [Fin.forall_fin_succ, mask, bits, opcodeOf, operandsOf])
theorem pulse (d : Duration) : Statement (.pulse d) := of_bits (by
  simp [Fin.forall_fin_succ, mask, bits, opcodeOf, operandsOf])
theorem bit (b : Bool) : Statement (.bit b) := by cases b <;> rfl
theorem byte (v : Byte) : Statement (.byte v) := of_bits (by
  simp [Fin.forall_fin_succ, mask, bits, opcodeOf, operandsOf])
theorem sync : Statement .sync := rfl
theorem pre : Statement .pre := rfl
theorem post : Statement .post := rfl
theorem fgap : Statement .fgap := rfl
theorem ibgap (n : BitVec 16) : Statement (.ibgap n) := of_bits (by
  simp [Fin.forall_fin_succ, mask, bits, opcodeOf, operandsOf])
theorem wrblk (t : BitVec 2) (c : BitVec 1) (s : Half16) : Statement (.wrblk t c s) := of_bits (by
  simp [Fin.forall_fin_succ, mask, bits, opcodeOf, operandsOf])
theorem bldhdr : Statement .bldhdr := rfl
theorem bldftr : Statement .bldftr := rfl
theorem encode : Statement .encode := rfl
theorem norm (a : Byte) : Statement (.norm a) := of_bits (by
  simp [Fin.forall_fin_succ, mask, bits, opcodeOf, operandsOf])

end Sys2Proof.Laws.TableRow
end

