-- ==== Sys2Proof/Laws/Record.lean ====
section
/-! SUPPORT. What writing into a record leaves, and that a record keeps its eighty bytes. -/

namespace Sys2Proof.Machine

@[simp] theorem length_putBytes (rec : List Byte) (off : Nat) (bs : List Byte) :
    (putBytes rec off bs).length = rec.length := by
  induction bs generalizing rec off with
  | nil => rfl
  | cons b bs ih => simp [putBytes, ih]

theorem getElem?_putBytes (rec : List Byte) (off : Nat) (bs : List Byte) (i : Nat) (hi : i < rec.length) :
    (putBytes rec off bs)[i]? = if off ≤ i ∧ i < off + bs.length then bs[i - off]? else rec[i]? := by
  induction bs generalizing rec off with
  | nil =>
    have : ¬(off ≤ i ∧ i < off + ([] : List Byte).length) := by simp only [List.length_nil]; omega
    rw [if_neg this, putBytes]
  | cons b bs ih =>
    rw [putBytes, ih _ _ (by simpa using hi), List.getElem?_set]
    by_cases h : off = i
    · subst h
      rw [if_neg (by omega), if_pos rfl, if_pos hi, if_pos (by simp), Nat.sub_self]
      rfl
    · rw [if_neg h]
      simp only [List.length_cons]
      by_cases h2 : off < i
      · obtain ⟨d, rfl⟩ : ∃ d, i = off + 1 + d := ⟨i - (off + 1), by omega⟩
        have e1 : off + 1 + d - (off + 1) = d := by omega
        have e2 : off + 1 + d - off = d + 1 := by omega
        simp only [e1, e2, List.getElem?_cons_succ]
        repeat' split
        all_goals first | rfl | omega
      · repeat' split
        all_goals first | rfl | omega

@[simp] theorem length_recordOf (p : Params) (tag4 name : List Byte) (ft : BitVec 2) (clk : Clock) :
    (recordOf p tag4 name ft clk).length = 80 := by simp [recordOf, Config.recLen]

end Sys2Proof.Machine
end

