-- ==== Sys2Proof/Laws/Sequencer.lean ====
section
/-! SUPPORT. What `ENCODE` is made of: a relation kept by each small operation is kept by the whole file. -/

namespace Sys2Proof.Machine

/-- The small operations an `ENCODE` consists of, and what a relation between states must say of each. -/
structure KeptByParts (R : State → State → Prop) : Prop where
  refl : ∀ s, R s s
  trans : ∀ s t u, R s t → R t u → R s u
  emit : ∀ s ds, R s (s.emit ds)
  goto : ∀ s q, R s (s.goto q)
  setBlk : ∀ s v, R s (s.setBlk v)
  setDone : ∀ s b, R s (s.setDone b)
  buildRecord : ∀ s tag4, R s (s.buildRecord tag4)
  storeFrame : ∀ s t c q, t ≠ 3#2 → R s (s.storeFrame t c q)
  loadChunk : ∀ s k, R s (s.loadChunk k)

namespace KeptByParts

variable {R : State → State → Prop} (h : KeptByParts R)
include h

theorem writeBlock (s : State) (t : BitVec 2) (c : BitVec 1) (q : Half16) (ht : t ≠ 3#2) : R s (s.writeBlock t c q) :=
  h.trans _ _ _ (h.storeFrame s t c q ht) (h.emit _ _)

theorem rebuildRecord (s : State) (tag4 : List Byte) : R s (s.rebuildRecord tag4) := by
  unfold State.rebuildRecord
  split
  · exact h.buildRecord s tag4
  · exact h.refl s

theorem encodeStart (s : State) : R s s.encodeStart :=
  h.trans _ _ _ (h.trans _ _ _ (h.setDone s false) (h.goto _ _)) (h.setBlk _ _)

theorem encodeHeader (s : State) : R s s.encodeHeader := by
  unfold State.encodeHeader
  refine h.trans _ _ _ ?_ (h.goto _ _)
  refine h.trans _ _ _ ?_ (h.emit _ _)
  refine h.trans _ _ _ ?_ (h.goto _ _)
  refine h.trans _ _ _ ?_ (h.writeBlock _ _ _ _ (by decide))
  refine h.trans _ _ _ ?_ (h.rebuildRecord _ _)
  refine h.trans _ _ _ ?_ (h.goto _ _)
  refine h.trans _ _ _ ?_ (h.writeBlock _ _ _ _ (by decide))
  refine h.trans _ _ _ ?_ (h.buildRecord _ _)
  exact h.trans _ _ _ (h.emit _ _) (h.goto _ _)

theorem encodeChunk (s : State) (b k : Nat) : R s (s.encodeChunk b k) := by
  unfold State.encodeChunk
  refine h.trans _ _ _ ?_ (h.goto _ _)
  refine h.trans _ _ _ ?_ (h.emit _ _)
  refine h.trans _ _ _ ?_ (h.goto _ _)
  refine h.trans _ _ _ ?_ (h.writeBlock _ _ _ _ (by decide))
  refine h.trans _ _ _ ?_ (h.goto _ _)
  refine h.trans _ _ _ ?_ (h.writeBlock _ _ _ _ (by decide))
  exact h.trans _ _ _ (h.setBlk _ _) (h.loadChunk _ _)

theorem encodeChunks (s : State) (b n : Nat) : R s (s.encodeChunks b n) := by
  induction n with
  | zero => exact h.refl s
  | succ n ih => exact h.trans _ _ _ ih (h.encodeChunk _ _ _)

theorem encodeFooter (s : State) (b : Nat) : R s (s.encodeFooter b) := by
  unfold State.encodeFooter
  refine h.trans _ _ _ ?_ (h.setDone _ _)
  refine h.trans _ _ _ ?_ (h.goto _ _)
  refine h.trans _ _ _ ?_ (h.emit _ _)
  refine h.trans _ _ _ ?_ (h.goto _ _)
  refine h.trans _ _ _ ?_ (h.writeBlock _ _ _ _ (by decide))
  refine h.trans _ _ _ ?_ (h.rebuildRecord _ _)
  refine h.trans _ _ _ ?_ (h.goto _ _)
  refine h.trans _ _ _ ?_ (h.writeBlock _ _ _ _ (by decide))
  exact h.trans _ _ _ (h.setBlk _ _) (h.buildRecord _ _)

/-- Whatever each part keeps, the whole file keeps. -/
theorem encodeFile (s : State) : R s s.encodeFile :=
  h.trans _ _ _ (h.trans _ _ _ (h.trans _ _ _ (h.encodeStart s) (h.encodeHeader _)) (h.encodeChunks _ _ _))
    (h.encodeFooter _ _)

end KeptByParts

end Sys2Proof.Machine
end

