-- ==== Sys2Proof/Laws/Step.lean ====
section
/-! SUPPORT. Everything one step can do, said once. -/

namespace Sys2Proof.Machine

/-- Which words the engine takes: the head of the host's moves, if it writes register 0. -/
theorem State.nextCommand_eq_some {s s' : State} {w : CmdWord} (h : s.nextCommand = some (w, s')) :
    ∃ rest, s.host = .write 0 w :: rest ∧ s' = s.withMoves rest := by
  unfold State.nextCommand at h
  split at h
  · rename_i w' rest e
    simp only [Option.some.injEq, Prod.mk.injEq] at h
    obtain ⟨rfl, rfl⟩ := h
    exact ⟨rest, e, rfl⟩
  · simp at h

theorem State.nextCommand_of_host {s : State} {w : CmdWord} {rest : List HostMove}
    (h : s.host = .write 0 w :: rest) : s.nextCommand = some (w, s.withMoves rest) := by
  simp [State.nextCommand, h]

/-- A step at which the host writes a word to `CMD`: the command, or the error of an illegal word. -/
theorem step_of_word {s : State} {w : CmdWord} {rest : List HostMove} (h : s.host = .write 0 w :: rest) :
    step s = match decode w with
      | .ok i => exec i (s.withMoves rest)
      | .error e => (s.withMoves rest).illegalWord e := by
  simp only [step, State.nextCommand_of_host h] <;> cases decode w <;> rfl

/-- A step at which the host makes a move that is no command word. -/
theorem step_of_move {s : State} {m : HostMove} {rest : List HostMove} (h : s.host = m :: rest)
    (hm : ∀ w, m ≠ .write 0 w) : step s = (s.withMoves rest).hostMove m := by
  have hn : s.nextCommand = none := by
    unfold State.nextCommand
    split
    · rename_i w r e
      rw [h] at e
      exact absurd (List.cons.inj e).1 (hm w)
    · rfl
  rw [step, hn]
  simp [State.hostTurn, h]

/-- A step that answers a next state ran a command, raised the error of an illegal word, idled, or made a move of the
host. -/
theorem step_cases {s t : State} (h : step s = .next t) :
    (∃ w rest i, s.host = .write 0 w :: rest ∧ decode w = .ok i ∧ exec i (s.withMoves rest) = .next t) ∨
    (∃ w rest e, s.host = .write 0 w :: rest ∧ decode w = .error e ∧
      t = (s.withMoves rest).raise (causeOf e)) ∨
    (s.host = [] ∧ t = s) ∨
    (∃ m rest, s.host = m :: rest ∧ s.nextCommand = none ∧
      (s.withMoves rest).hostMove m = .next t) := by
  unfold step at h
  split at h
  · rename_i w s' e
    obtain ⟨rest, hs, rfl⟩ := State.nextCommand_eq_some e
    split at h
    · exact .inl ⟨w, rest, _, hs, ‹_›, h⟩
    · exact .inr (.inl ⟨w, rest, _, hs, ‹_›, by simpa [State.illegalWord] using h.symm⟩)
  · rename_i e
    unfold State.hostTurn at h
    split at h
    · exact .inr (.inr (.inl ⟨‹_›, by simpa using h.symm⟩))
    · exact .inr (.inr (.inr ⟨_, _, ‹_›, e, h⟩))

/-- A move of the host that is no command writes one register, one byte, the host's own value, or a clock draw. -/
theorem State.hostMove_cases {s t : State} {m : HostMove} (h : s.hostMove m = .next t) :
    (∃ reg v, m = .write reg v ∧ t = s.writeReg reg v) ∨
    (∃ i v, m = .load .pm i v ∧ t = { s with pm := s.pm.write i v }) ∨
    (∃ i v, m = .load .name i v ∧ i < 256 ∧ t = { s with name := s.name.write i v }) ∨
    (∃ i v, m = .load .pb i v ∧ i < 256 ∧ t = { s with pb := s.pb.write i v }) ∨
    (∃ n, t = { s with lastRead := n }) ∨
    (∃ c, m = .clock c ∧ t = { s with clk := s.clk ++ [c] }) := by
  cases m with
  | write reg v => exact .inl ⟨reg, v, rfl, by simpa [State.hostMove] using h.symm⟩
  | load space i v =>
    cases space with
    | pm => exact .inr (.inl ⟨i, v, rfl, by simpa [State.hostMove, State.hostLoad] using h.symm⟩)
    | name =>
      simp only [State.hostMove, State.hostLoad] at h
      split at h
      · exact .inr (.inr (.inl ⟨i, v, rfl, of_decide_eq_true ‹hasIndex .name i = true›,
          by simpa using h.symm⟩))
      · simp at h
    | pb =>
      simp only [State.hostMove, State.hostLoad] at h
      split at h
      · exact .inr (.inr (.inr (.inl ⟨i, v, rfl, of_decide_eq_true ‹hasIndex .pb i = true›,
          by simpa using h.symm⟩)))
      · simp at h
  | read reg =>
    exact .inr (.inr (.inr (.inr (.inl ⟨s.readReg reg, by simpa [State.hostMove] using h.symm⟩))))
  | readByte space i =>
    simp only [State.hostMove, State.hostReadByte] at h
    split at h
    · rename_i v _
      exact .inr (.inr (.inr (.inr (.inl ⟨v.toNat, by simpa using h.symm⟩))))
    · simp at h
  | clock c =>
    exact .inr (.inr (.inr (.inr (.inr ⟨c, rfl, by simpa [State.hostMove] using h.symm⟩))))

end Sys2Proof.Machine
end

