-- ==== Sys2Proof/Tests/Slice0.lean ====
section
/-! SUPPORT. Small tests of one step or one value each, and a witness for the hypotheses of every obligation. The expected
values are those of spec/95_test_vectors.md and of the rules named at each test. -/

namespace Sys2Proof.Tests

open Sys2Proof Sys2Proof.Machine

/-! ### Helpers -/

/-- A small state with every field written out where a test reads it. -/
def base : State := { State.reset with crc := 0x0000#16 }

/-- The state with an error held. -/
def inError : State := { base with status := 0x04#8 }

/-- The state a result leaves, or the given one. -/
def after (r : Result) (s : State) : State :=
  match r with
  | .next t => t
  | .fault _ => s
  | .refused _ => s

/-- Whether a result is the given fault. -/
def faults (r : Result) (f : Fault) : Bool :=
  match r with
  | .next _ => false
  | .fault g => g = f
  | .refused _ => false

/-- `STATUS` after the engine takes a word. -/
def statusAfter (s : State) (w : Nat) : BitVec 8 := (after (step (s.withFetchWord 32 w)) s).status

/-- `TEST_SHAPE` of 95_test_vectors.md 3.4, for the half-lengths 3 and 5. -/
def shaped : State :=
  { base with params := { Params.default with
      riseTable := [(3, [129#8, 130#8, 130#8]), (5, [129#8, 130#8, 130#8, 130#8, 130#8])]
      fallTable := [(3, [129#8, 128#8, 128#8]), (5, [129#8, 128#8, 128#8, 128#8, 128#8])] } }

/-- The state of 95_test_vectors.md 4.2: name `TEST`, the fixed clock. -/
def named : State :=
  { base with
    name := [(0, 0x54#8), (1, 0x45#8), (2, 0x53#8), (3, 0x54#8)]
    namelen := 4#8
    clk := [0x010203040506#48, 0x010203040506#48] }

/-- A sample buffer with room for nine samples. -/
def noRoom : State := { shaped with params := { shaped.params with sbCapacity := some 9 } }

/-- A one-byte program. -/
def tiny : State := { named with pm := [(0, 0x41#8)], plen := 1#32 }

/-- The same program with a record built per copy, every build at the fixed clock, and the dump on. -/
def tinyPerCopy : State :=
  { tiny with
    params := { Params.default with metaPerCopy := true }
    ctrl := 0x02#8
    clk := [0x010203040506#48, 0x010203040506#48, 0x010203040506#48, 0x010203040506#48] }

/-- A pulse trace as bits (95_test_vectors.md 3.2). -/
def bitsOf (ds : List Duration) : List Nat := ds.map (fun d => if d = 1000#16 then 1 else if d = 545#16 then 0 else 2)

/-! ### Well-formedness, decoding, encoding (R56, R58, R59, R62) -/

theorem test_wellformed_refuses_type3 : (Instr.wrblk 3#2 0#1 0#16).WellFormed = false := by decide
theorem test_wellformed_accepts_type2 : (Instr.wrblk 2#2 1#1 0xFFFF#16).WellFormed = true := by decide

theorem test_decode_reset : decode 0x01000000#32 = .ok .reset := by rfl
theorem test_decode_crcinit : decode 0x10000000#32 = .ok .crcinit := by rfl
theorem test_decode_crcbyte : decode 0x11000031#32 = .ok (.crcbyte 0x31#8) := by rfl
theorem test_decode_pulse : decode 0x200003E8#32 = .ok (.pulse 1000#16) := by rfl
theorem test_decode_bit : decode 0x21000001#32 = .ok (.bit true) := by rfl
theorem test_decode_byte : decode 0x220000AA#32 = .ok (.byte 0xAA#8) := by rfl
theorem test_decode_sync : decode 0x23000000#32 = .ok .sync := by rfl
theorem test_decode_pre : decode 0x24000000#32 = .ok .pre := by rfl
theorem test_decode_post : decode 0x25000000#32 = .ok .post := by rfl
theorem test_decode_fgap : decode 0x26000000#32 = .ok .fgap := by rfl
theorem test_decode_ibgap : decode 0x2700012C#32 = .ok (.ibgap 300#16) := by rfl
theorem test_decode_wrblk : decode 0x30050002#32 = .ok (.wrblk 2#2 1#1 2#16) := by rfl
theorem test_decode_bldhdr : decode 0x40000000#32 = .ok .bldhdr := by rfl
theorem test_decode_bldftr : decode 0x41000000#32 = .ok .bldftr := by rfl
theorem test_decode_encode : decode 0x50000000#32 = .ok .encode := by rfl
theorem test_decode_norm : decode 0x6000005F#32 = .ok (.norm 95#8) := by rfl

/-- 95_test_vectors.md section 5: type 3 and reserved bit 19. -/
theorem test_decode_wrblk_refused :
    decode 0x30060000#32 = .error .illArg ∧ decode 0x30080000#32 = .error .illArg := ⟨by rfl, by rfl⟩

theorem test_encode_wrblk : encode (.wrblk 2#2 1#1 2#16) = 0x30050002#32 := by decide
theorem test_encode_norm : encode (.norm 95#8) = 0x6000005F#32 := by decide
theorem test_decodeTableWord : decodeTableWord 32 0x2700012C = some (.ibgap 300#16) := by rfl

/-! ### STATUS after one word (95_test_vectors.md 8.2) -/

theorem test_status_power_on :
    [0x00000000, 0x02000000, 0xFF000000, 0x21000002, 0x22000100, 0x23000001, 0x01000001, 0x50000000, 0x50000001].map
      (statusAfter State.reset) = [0x0C#8, 0x0C#8, 0x0C#8, 0x10#8, 0x10#8, 0x10#8, 0x10#8, 0x04#8, 0x10#8] := by decide

theorem test_status_too_long :
    statusAfter { State.reset with plen := 16776705#32 } 0x50000000 = 0x08#8 := by decide

theorem test_status_sticky :
    [0x22000041, 0x00000000, 0x01000001, 0x01000000].map (statusAfter inError) = [0x04#8, 0x04#8, 0x04#8, 0x00#8] := by
  decide

/-! ### RESET (R130; Program 3 step 6) -/

theorem test_reset_clears :
    let t := after (exec .reset { tiny with status := 0x02#8, seqst := .done, blk := 2#16, crc := 0x83FF#16,
                                            sb := [129#8], pt := [1000#16] }) base
    t.sb = [] ∧ t.pt = [] ∧ t.seqst = .idle ∧ t.blk = 0#16 ∧ t.status = 0x00#8 ∧ t.crc = 0x83FF#16 ∧ t.plen = 1#32 := by
  decide

/-! ### CRC-16 (95_test_vectors.md section 2) -/

theorem test_crcinit_modes :
    (after (exec .crcinit { base with crc := 0x1234#16 }) base).crc = 0x0000#16 ∧
    (after (exec .crcinit { base with ctrl := 0x01#8 }) base).crc = 0xFFFF#16 := by decide

theorem test_crcbyte_modes :
    (after (exec (.crcbyte 0x31#8) base) base).crc = 0x200A#16 ∧
    (after (exec (.crcbyte 0x31#8) { base with ctrl := 0x01#8, crc := 0xFFFF#16 }) base).crc = 0xC782#16 := by decide

/-- 2.4: the mode changed between `CRCINIT` and `CRCBYTE`. -/
theorem test_crcbyte_mode_change :
    (after (exec (.crcbyte 0x31#8) { base with ctrl := 0x01#8 }) base).crc = 0x2672#16 ∧
    (after (exec (.crcbyte 0x31#8) { base with crc := 0xFFFF#16 }) base).crc = 0x2F8D#16 := by decide

/-! ### Pulse encoder (95_test_vectors.md section 3) -/

theorem test_nSamples : [0#16, 90#16, 91#16, 181#16, 182#16, 273#16, 400#16, 545#16, 1000#16, 65535#16].map nSamples =
    [0, 0, 1, 1, 2, 3, 4, 6, 11, 722] := by decide

theorem test_halfLengths :
    halfLengths .floor 1000#16 = (5, 5) ∧ halfLengths .keepTotal 1000#16 = (5, 6) ∧
    halfLengths .floor 273#16 = (1, 1) ∧ halfLengths .keepTotal 273#16 = (1, 2) := by decide

/-- `BIT 0` and `BIT 1` under `TEST_SHAPE`. -/
theorem test_bit_samples :
    (after (exec (.bit false) shaped) base).sb = [129#8, 130#8, 130#8, 129#8, 128#8, 128#8] ∧
    (after (exec (.bit true) shaped) base).sb =
      [129#8, 130#8, 130#8, 130#8, 130#8, 129#8, 128#8, 128#8, 128#8, 128#8] := by decide

theorem test_pulse_545 : (after (exec (.pulse 545#16) shaped) base).sb = [129#8, 130#8, 130#8, 129#8, 128#8, 128#8] := by
  decide

theorem test_byte_bits :
    bitsOf (after (exec (.byte 0x48#8) base) base).pt = [0, 0, 0, 1, 0, 0, 1, 0, 1] ∧
    bitsOf (after (exec (.byte 0x01#8) base) base).pt = [1, 0, 0, 0, 0, 0, 0, 0, 1] := by decide

theorem test_sync_bits : bitsOf (after (exec .sync base) base).pt = List.replicate 80 0 := by decide

theorem test_pre_bits :
    bitsOf (after (exec .pre base) base).pt = [1, 1, 1, 1, 1, 1, 1, 1, 1, 1, 0, 1, 0, 1, 0, 1, 0, 1, 1] := by decide

theorem test_post_bits :
    bitsOf (after (exec .post base) base).pt = [0, 1, 0, 1, 0, 1, 0, 1, 1, 0, 0, 0, 0, 0, 0, 0, 0, 1] := by decide

theorem test_ibgap_bits :
    (after (exec (.ibgap 0#16) base) base).pt = [] ∧
    bitsOf (after (exec (.ibgap 1#16) base) base).pt = [1, 1, 1, 1, 1, 1, 1, 1, 1] := by decide

theorem test_pulse_no_room : faults (exec (.pulse 1000#16) noRoom) .sampleBufferFull = true := by decide

/-! ### Metadata builder (95_test_vectors.md section 4) -/

theorem test_bldhdr_record :
    (after (exec .bldhdr named) base).readBytes .pb 0 49 =
      [0x48#8, 0x44#8, 0x52#8, 0x31#8, 0x54#8, 0x45#8, 0x53#8, 0x54#8, 0x20#8, 0x20#8, 0x20#8, 0x20#8, 0x20#8, 0x20#8,
       0x20#8, 0x20#8, 0xFF#8, 0xFF#8, 0x20#8, 0x20#8, 0x32#8, 0x53#8, 0x20#8, 0x20#8, 0x32#8, 0x35#8, 0x36#8, 0x30#8,
       0x31#8, 0x30#8, 0x32#8, 0x30#8, 0x33#8, 0x30#8, 0x34#8, 0x30#8, 0x35#8, 0x30#8, 0x36#8, 0x30#8, 0x31#8, 0x48#8,
       0x58#8, 0x2D#8, 0x32#8, 0x30#8, 0x20#8, 0x20#8, 0x20#8] := by decide

/-- 4.4: a clock digit above 9. -/
theorem test_bldhdr_digit :
    (after (exec .bldhdr { named with clk := [0xA00000000000#48] }) base).readByte .pb 27 = 0x3A#8 := by decide

theorem test_bldftr_tag :
    (after (exec .bldftr named) base).readBytes .pb 0 5 = [0x45#8, 0x4F#8, 0x46#8, 0x44#8, 0x54#8] := by decide

/-- 4.3: a name of twelve bytes is cut to eight. -/
theorem test_bldftr_long_name :
    (after (exec .bldftr { named with
        name := [(0, 0x4C#8), (1, 0x4F#8), (2, 0x4E#8), (3, 0x47#8), (4, 0x46#8), (5, 0x49#8), (6, 0x4C#8), (7, 0x45#8),
                 (8, 0x4E#8), (9, 0x41#8), (10, 0x4D#8), (11, 0x45#8)]
        namelen := 12#8 }) base).readBytes .pb 4 9 =
      [0x4C#8, 0x4F#8, 0x4E#8, 0x47#8, 0x46#8, 0x49#8, 0x4C#8, 0x45#8, 0x20#8] := by decide

/-- 4.1: the type-flag table. -/
theorem test_type_flags :
    typeFlags 0x20#8 0#2 = [0x20#8, 0xFF#8, 0xFF#8, 0x20#8, 0x20#8] ∧
    typeFlags 0x20#8 1#2 = [0x20#8, 0x00#8, 0x00#8, 0x20#8, 0x20#8] ∧
    typeFlags 0x20#8 2#2 = [0x01#8, 0xFF#8, 0xFF#8, 0x20#8, 0x20#8] ∧
    typeFlags 0x20#8 3#2 = [0x02#8, 0x20#8, 0x20#8, 0x20#8, 0x20#8] := by decide

/-! ### Block framer (95_test_vectors.md section 5) -/

set_option maxRecDepth 20000 in
/-- The bytes and the checksum of the header block of the file TEST, copy 0. -/
theorem test_wrblk_header :
    let t := (named.buildRecord headerTag).storeFrame 0#2 0#1 0#16
    t.crc = 0x381B#16 ∧ t.readBytes .fb 0 6 = [0x48#8, 0x00#8, 0x00#8, 0x00#8, 0x48#8, 0x44#8] ∧
    t.readBytes .fb 84 2 = [0x1B#8, 0x38#8] := by decide +kernel

set_option maxRecDepth 20000 in
/-- Copy 1 of the same block. -/
theorem test_wrblk_copy :
    let t := (named.buildRecord headerTag).storeFrame 0#2 1#1 0#16
    t.readByte .fb 3 = 0x01#8 ∧ t.readBytes .fb 84 2 = [0x3E#8, 0x68#8] := by decide +kernel

/-! ### Sequencer (95_test_vectors.md sections 7, 8.1) -/

theorem test_block_counts : [1#32, 255#32, 256#32, 257#32, 512#32, 513#32, 65536#32, 16776704#32].map
    (fun n => ({ base with plen := n } : State).blockCount) = [1, 1, 1, 2, 2, 3, 256, 65534] := by decide

/-- The only chunk of a one-byte program: the byte, then zeros. -/
theorem test_encode_chunk : (tiny.chunk 1).take 3 = [0x41#8, 0x00#8, 0x00#8] := by decide

/-! ### Normalizer (95_test_vectors.md section 6) -/

theorem test_norm_floor :
    (after (exec (.norm 95#8) { base with sb := [128#8, 129#8, 130#8, 131#8] }) base).sb = [33#8, 96#8, 159#8, 223#8] ∧
    (after (exec (.norm 255#8) { base with sb := [128#8, 129#8, 130#8] }) base).sb = [0#8, 128#8, 255#8] ∧
    (after (exec (.norm 95#8) { base with sb := [129#8, 129#8] }) base).sb = [129#8, 129#8] := by decide

theorem test_norm_nearest :
    (after (exec (.norm 100#8) { base with sb := [10#8, 20#8, 40#8, 80#8],
                                           params := { Params.default with normRound := .nearest } }) base).sb =
      [28#8, 57#8, 114#8, 228#8] := by decide

/-! ### The host's registers (10_state.md R15, R24) -/

theorem test_host_ctrl_write :
    (after (step { base with host := [.write 2 0xFFFFFFFF#32] }) base).ctrl = 0x03#8 := by decide

theorem test_host_crc_read :
    (after (step { base with crc := 0x83FF#16, host := [.read 3] }) base).lastRead = 0x83FF := by decide

/-! ### Witnesses: a state and operands that meet the hypotheses of each obligation -/

theorem witness_DecodeOfEncode : (Instr.wrblk 2#2 1#1 0xFFFF#16).WellFormed = true := by decide

theorem witness_EncodeOfDecode : decode 0x3005FFFF#32 = .ok (.wrblk 2#2 1#1 0xFFFF#16) := by rfl

/-- The words next to each boundary of the verdicts: an opcode beside the table's, the first bit above an operand, type 3,
and the last legal word of `WRBLK`. -/
theorem witness_DecoderVerdicts :
    opField 0x42000000#32 ∉ legalOpcodes ∧
    (opField 0x60000100#32 ∈ legalOpcodes ∧ argField 0x60000100#32 &&& ~~~operandBits 0x60#8 ≠ 0#24) ∧
    (opField 0x30070000#32 = 0x30#8 ∧ (argField 0x30070000#32).extractLsb' 17 2 = 3#2) ∧
    decode 0x3005FFFF#32 = .ok (.wrblk 2#2 1#1 0xFFFF#16) := by
  refine ⟨by decide, by decide, by decide, by rfl⟩

theorem witness_StepRunsDecodedCommand :
    ({ base with host := [.write 0 0x11000031#32] } : State).host = .write 0 0x11000031#32 :: [] ∧
    decode 0x11000031#32 = .ok (.crcbyte 0x31#8) := ⟨rfl, by rfl⟩

/-- Each clause of the priority, `PLEN` at both sides of its bound. -/
theorem witness_RefusalPriority :
    ((inError.withFetchWord 32 0).host = [.write 0 0#32] ∧ (inError.withFetchWord 32 0).err ≠ 0#3) ∧
    ((base.withFetchWord 32 0).host = [.write 0 0#32] ∧ base.err = 0#3 ∧ opField 0#32 ∉ legalOpcodes) ∧
    ((base.withFetchWord 32 0x50000001).host = [.write 0 0x50000001#32] ∧ opField 0x50000001#32 ∈ legalOpcodes ∧
      argField 0x50000001#32 &&& ~~~operandBits 0x50#8 ≠ 0#24) ∧
    ((base.withFetchWord 32 0x50000000).host = [.write 0 0x50000000#32] ∧ base.plen = 0#32) ∧
    16776704 < (16776705#32 : BitVec 32).toNat ∧ ¬16776704 < (16776704#32 : BitVec 32).toNat := by decide

theorem witness_IdleEngineWaits : State.reset.host = [] := rfl

/-- One write of each writable register, of a read-only one and of one that does not exist, and what they read as after. -/
theorem witness_HostRegisterWrite :
    [(2, 2), (4, 4), (5, 5), (6, 6), (3, 3), (10, 10)].map (fun r : Nat × Nat =>
      (after (step { base with host := [.write r.1 0xFFFFFFFF#32] }) base).readReg r.2) =
      [3, 4294967295, 255, 3, 0, 0] := by decide

theorem witness_HostRegisterRead :
    [0, 1, 2, 7, 8, 9, 10].map (fun r =>
      (after (step { base with
        status := 0x02#8, ctrl := 0x03#8, seqst := .done, blk := 2#16, sb := [129#8], host := [.read r] }) base).lastRead) =
      [0, 2, 3, 1, 11, 2, 0] := by decide

/-- The last index of `NAME` and of `PB`, and an index of `PM` above them. -/
theorem witness_HostBufferLoad :
    (after (step { base with host := [.load .name 255 0x41#8] }) base).readByte .name 255 = 0x41#8 ∧
    (after (step { base with host := [.load .pb 255 0x42#8] }) base).readByte .pb 255 = 0x42#8 ∧
    (after (step { base with host := [.load .pm 256 0x43#8] }) base).readByte .pm 256 = 0x43#8 := by decide

/-- The last index of `FB`, of `PB`, of `SB`. -/
theorem witness_HostBufferRead :
    (after (step { base with fb := [(261, 0x41#8)], host := [.readByte (.buffer .fb) 261] }) base).lastRead = 0x41 ∧
    (after (step { base with pb := [(255, 0x42#8)], host := [.readByte (.buffer .pb) 255] }) base).lastRead = 0x42 ∧
    (after (step { base with sb := [1#8, 2#8], host := [.readByte .sb 1] }) base).lastRead = 2 := by decide

/-- The first index each buffer does not have. -/
theorem witness_HostIndexStops :
    [HostMove.load .name 256 0#8, .load .pb 256 0#8, .readByte (.buffer .name) 256, .readByte (.buffer .pb) 256,
      .readByte (.buffer .fb) 262, .readByte .sb 0].map
      (fun m => faults (step { base with host := [m] }) .noSuchIndex) = [true, true, true, true, true, true] := by decide

theorem witness_MemoryStaysCanonical :
    tiny.MemoryOk ∧ step { tiny with host := [.load .pb 7 0x41#8] } = .next { tiny with pb := [(7, 0x41#8)] } :=
  ⟨by decide, rfl⟩

theorem witness_StatusStaysLegal : inError.StatusOk ∧ step inError = .next inError := ⟨by decide, rfl⟩

theorem witness_SequencerRests : base.SequencerOk ∧ step base = .next base := ⟨by decide, rfl⟩

/-- A finite buffer, filled to its last place. -/
theorem witness_CapacityIsKept :
    ({ noRoom with sb := List.replicate 9 0#8 } : State).CapacityOk ∧
    step { noRoom with sb := List.replicate 9 0#8 } = .next { noRoom with sb := List.replicate 9 0#8 } := by
  refine ⟨fun n h => ?_, rfl⟩
  obtain rfl : 9 = n := by simpa [noRoom] using h
  decide

theorem witness_ParametersStayFixed : step base = .next base := rfl

theorem witness_SamplesRenderPulses :
    base.sb = render base.params base.pt ∧
    (∃ t, step { base with host := [.write 0 0x23000000#32] } = .next t) ∧ decode 0x23000000#32 = .ok .sync :=
  ⟨rfl, ⟨_, rfl⟩, by rfl⟩

theorem witness_OnlyNormAndResetTouchSamples :
    (∃ t, step { base with host := [.write 0 0x24000000#32] } = .next t) ∧ decode 0x24000000#32 = .ok .pre :=
  ⟨⟨_, rfl⟩, by rfl⟩

theorem witness_CommandsKeepHostState : ∃ t, exec .bldhdr named = .next t := ⟨_, rfl⟩

theorem witness_RegisterWriters : ∃ t, exec .post base = .next t := ⟨_, rfl⟩

/-- An index a command stores to and the first one behind. -/
theorem witness_BufferFrame :
    (∃ t, exec .bldftr named = .next t) ∧ stores .bldftr .pb 79 ∧ ¬stores .bldftr .pb 80 ∧
    stores (.wrblk 1#2 0#1 1#16) .fb 261 ∧ ¬stores (.wrblk 1#2 0#1 1#16) .fb 262 ∧
    stores (.wrblk 2#2 0#1 1#16) .fb 85 ∧ ¬stores (.wrblk 2#2 0#1 1#16) .fb 86 ∧ ¬stores (.wrblk 3#2 0#1 1#16) .fb 0 :=
  ⟨⟨_, rfl⟩, by simp [stores], by simp [stores], by simp [stores, payloadLen, Config.dataLen],
    by simp [stores, payloadLen, Config.dataLen], by simp [stores, payloadLen, Config.recLen],
    by simp [stores, payloadLen, Config.recLen], by simp [stores]⟩

/-- Both cases: a buffer without bound, and a finite one that a command overruns. -/
theorem witness_EveryCommandEnds :
    base.params.sbCapacity = none ∧ noRoom.params.sbCapacity = some 9 ∧
    faults (exec (.bit true) noRoom) .sampleBufferFull = true := by decide

/-- An error entered by a command, by an illegal word, and one held. -/
theorem witness_ErrorsArePrecise :
    (∃ t, exec .encode base = .next t ∧ base.err = 0#3 ∧ t.err ≠ 0#3) ∧
    (∃ t, step { base with host := [.write 0 0xFF000000#32] } = .next t ∧ base.err = 0#3 ∧ t.err ≠ 0#3) ∧
    (∃ t, step { inError with host := [.write 0 0xFF000000#32] } = .next t ∧ inError.err ≠ 0#3 ∧ t.err ≠ 0#3) :=
  ⟨⟨_, rfl, by decide, by decide⟩, ⟨_, rfl, by decide, by decide⟩, ⟨_, rfl, by decide, by decide⟩⟩

/-- The accepted writes while an error is held, the loads at the last index. -/
theorem witness_StickyError :
    inError.err ≠ 0#3 ∧ Instr.bldhdr ≠ .reset ∧ statusAfter inError 0x01000000 = 0x00#8 ∧
    (after (step { inError with host := [.write 4 7#32] }) base).plen = 7#32 ∧
    (after (step { inError with host := [.write 5 0x1FF#32] }) base).namelen = 0xFF#8 ∧
    (after (step { inError with host := [.write 6 5#32] }) base).ftype = 1#2 ∧
    (after (step { inError with host := [.write 2 0xFD#32] }) base).ctrl = 0x01#8 ∧
    (after (step { inError with host := [.load .pm 256 9#8] }) base).readByte .pm 256 = 9#8 ∧
    (after (step { inError with host := [.load .name 255 9#8] }) base).readByte .name 255 = 9#8 ∧
    (after (step { inError with host := [.load .pb 255 9#8] }) base).readByte .pb 255 = 9#8 := by decide

theorem witness_CrcInitResult :
    base.err = 0#3 ∧ inError.err ≠ 0#3 ∧ opField 0x10800000#32 = 0x10#8 ∧ argField 0x10800000#32 ≠ 0#24 := by decide

theorem witness_CrcByteResult :
    base.err = 0#3 ∧ inError.err ≠ 0#3 ∧ opField 0x11000100#32 = 0x11#8 ∧
    (argField 0x11000100#32).extractLsb' 8 16 ≠ 0#16 := by decide

theorem witness_CrcCommandsComputeChecksum : base.err = 0#3 := by decide

theorem witness_CrcDetectsOneByte : (0x00#8 : Byte) ≠ 0x80#8 := by decide

/-- Both policies; the longest duration that has no sample under `floor`, and the next; halves that are centred. -/
theorem witness_PulseLength :
    Params.default.halfPolicy = .floor ∧ ({ Params.default with halfPolicy := .keepTotal } : Params).halfPolicy = .keepTotal ∧
    (181#16 : Duration).toNat < 182 ∧ (pulseSamples shaped.params 545#16).length = 6 ∧
    Centred (riseShape shaped.params 3) ∧ Centred (fallShape shaped.params 3) := by
  unfold Centred
  decide

theorem witness_PulseCommandsResult :
    pulsesOf (.pulse 65535#16) = some [65535#16] ∧ base.err = 0#3 ∧ base.Fits [65535#16] :=
  ⟨rfl, by decide, fun n h => by simp [base, State.reset, Params.default] at h⟩

theorem witness_PulseCounts :
    longShort (.byte 0x48#8) = some (3, 6) ∧ longShort (.ibgap 1#16) = some (9, 0) ∧ longShort .fgap = some (5526, 0) ∧
    base.err = 0#3 ∧ ∃ t, exec (.byte 0x48#8) base = .next t := by
  refine ⟨by decide, by decide, by decide, by decide, _, rfl⟩

/-- A pulse, a block and a file that do not fit into nine places. -/
theorem witness_PulseCommandsStopWhenFull :
    (pulsesOf (.bit true) = some [1000#16] ∧ noRoom.err = 0#3 ∧ ¬noRoom.Fits [1000#16]) ∧
    (∀ f, ¬noRoom.Fits (durations (onMedium noRoom.params.blockTrailGap f))) ∧
    ({ tiny with params := noRoom.params } : State).EncodeAccepted ∧
    ¬({ tiny with params := noRoom.params } : State).Fits
      (durations (fileOnMedium { tiny with params := noRoom.params })) := by
  refine ⟨⟨rfl, by decide, fun h => absurd (h 9 rfl) (by decide)⟩, fun f h => ?_, by decide, fun h => ?_⟩
  · obtain ⟨ds, e⟩ : ∃ ds, durations (onMedium noRoom.params.blockTrailGap f) = 545#16 :: 545#16 :: ds := ⟨_, rfl⟩
    have h9 := h 9 rfl
    have h6 : (pulseSamples noRoom.params 545#16).length = 6 := by decide
    rw [e, render_cons, render_cons, List.length_append, List.length_append, h6] at h9
    omega
  · obtain ⟨ds, e⟩ : ∃ ds, durations (fileOnMedium { tiny with params := noRoom.params }) = 1000#16 :: ds := ⟨_, rfl⟩
    have h9 := h 9 rfl
    have h10 : (pulseSamples noRoom.params 1000#16).length = 10 := by decide
    rw [e, render_cons, List.length_append, h10] at h9
    omega

theorem witness_WriteBlockResult :
    ((1#2 : BitVec 2) = 1#2 ∧ (256 : Nat) = 256 ∧ (0x44#8 : Byte) = 0x44#8) ∧ base.err = 0#3 ∧
    base.Fits (durations (onMedium base.params.blockTrailGap
      (frameBytes base.crcMode 0x44#8 1#16 0#1 ((List.range 256).map (base.readByte .pb))))) :=
  ⟨by decide, by decide, fun n h => by simp [base, State.reset, Params.default] at h⟩

theorem witness_WriteBlockReservedType : base.err = 0#3 := by decide

theorem witness_WriteBlockCounts :
    ((2#2 : BitVec 2) = 0#2 ∨ (2#2 : BitVec 2) = 2#2) ∧ base.err = 0#3 ∧ ∃ t, exec (.wrblk 2#2 1#1 2#16) base = .next t :=
  ⟨by decide, by decide, _, rfl⟩

theorem witness_CopiesDifferInCopyAndChecksum : (83 : Nat) ≠ 3 ∧ 83 < (List.replicate 80 0x20#8).length + 4 := by decide

theorem witness_DebugFlagReachesOnlyDump :
    (0x02#8 : BitVec 8).getLsbD 0 = base.ctrl.getLsbD 0 ∧ ∃ t, exec (.wrblk 0#2 0#1 0#16) base = .next t :=
  ⟨by decide, _, rfl⟩

theorem witness_RecordBuildResult :
    named.err = 0#3 ∧ inError.err ≠ 0#3 ∧ opField 0x41800000#32 = 0x41#8 ∧ argField 0x41800000#32 ≠ 0#24 := by decide

theorem witness_RecordLayout :
    Params.default.OffsetsOk ∧ headerTag.length = 4 ∧ (∀ f ∈ Params.default.fields, 49 < f.1 ∨ f.1 + f.2 ≤ 49) := by decide

theorem witness_RecordFixedFields :
    named.params = Params.default ∧ named.err = 0#3 ∧ (∃ h, exec .bldhdr named = .next h) ∧
    ∃ f, exec .bldftr named = .next f := ⟨rfl, by decide, ⟨_, rfl⟩, ⟨_, rfl⟩⟩

theorem witness_EncodeRefusals :
    base.err = 0#3 ∧ base.plen = 0#32 ∧ 16776704 < (16776705#32 : BitVec 32).toNat ∧
    (16776704#32 : BitVec 32).toNat = 16776704 ∧ base.params.sbCapacity = none := by decide

/-- The first and the last chunk of a program of 257 bytes, the last with one byte of it. -/
theorem witness_ChunksPadLastBlock :
    dataBlocks { base with plen := 257#32 } = 2 ∧ 256 * (2 - 1) + 0 < (257#32 : BitVec 32).toNat ∧
    ¬256 * (2 - 1) + 1 < (257#32 : BitVec 32).toNat := by decide

/-- The shortest and the longest program. -/
theorem witness_EncodeAccepted : tiny.EncodeAccepted ∧ ({ base with plen := 16776704#32 } : State).EncodeAccepted := by
  decide

/-- Both values of `META_PER_COPY` and of `CTRL.DBG`. -/
theorem witness_EncodeResult :
    (tiny.EncodeAccepted ∧ tiny.params.metaPerCopy = false ∧ tiny.ctrl.getLsbD 1 = false ∧
      tiny.Fits (durations (fileOnMedium tiny))) ∧
    tinyPerCopy.EncodeAccepted ∧ tinyPerCopy.params.metaPerCopy = true ∧ tinyPerCopy.ctrl.getLsbD 1 = true ∧
      tinyPerCopy.Fits (durations (fileOnMedium tinyPerCopy)) :=
  ⟨⟨by decide, rfl, by decide, fun n h => by simp [tiny, named, base, State.reset, Params.default] at h⟩,
    by decide, rfl, by decide, fun n h => by simp [tinyPerCopy, Params.default] at h⟩

theorem witness_EncodePulseCount : tiny.EncodeAccepted ∧ tiny.params.sbCapacity = none := ⟨by decide, rfl⟩

theorem witness_EncodeDoubleWrite :
    (tiny.EncodeAccepted ∧ tiny.params.metaPerCopy = false ∧ tiny.params.sbCapacity = none ∧ dataBlocks tiny = 1) ∧
    tinyPerCopy.EncodeAccepted ∧ tinyPerCopy.params.metaPerCopy = true ∧ tinyPerCopy.params.sbCapacity = none ∧
      tinyPerCopy.clockAt 0 = tinyPerCopy.clockAt 1 ∧ tinyPerCopy.clockAt 2 = tinyPerCopy.clockAt 3 :=
  ⟨⟨by decide, rfl, rfl, by decide⟩, by decide, rfl, rfl, by decide, by decide⟩

/-- Two states that differ in what an `ENCODE` does not read and in `META_PER_COPY`, with the same sample in each record; and
two that differ in the clock. -/
theorem witness_EncodeReproducible :
    (SameEncodeInputs tiny { tinyPerCopy with crc := 0xFFFF#16, blk := 9#16, pb := [(0, 0x55#8)] } ∧ tiny.sb = [] ∧
      tiny.EncodeAccepted ∧ tinyPerCopy.err = 0#3 ∧ tiny.params.sbCapacity = none) ∧
    SameButClock tiny { tiny with clk := [0x123199235959#48] } := by
  refine ⟨⟨⟨⟨rfl, rfl, rfl, rfl, rfl, fun _ _ => rfl, fun _ _ => rfl⟩, ?_⟩, rfl, by decide, by decide, rfl⟩,
    rfl, rfl, rfl, rfl, rfl, fun _ _ => rfl, fun _ _ => rfl⟩
  intro record copy h1 h2
  match record, copy, h1, h2 with
  | 0, 0, _, _ => rfl
  | 0, 1, _, _ => rfl
  | 1, 0, _, _ => rfl
  | 1, 1, _, _ => rfl

theorem witness_SequencerSmallSteps : tiny.plen ≠ 0#32 ∧ tiny.plen.toNat ≤ 16776704 := by decide

theorem witness_ResetCommandResult :
    opField 0x01000001#32 = 0x01#8 ∧ argField 0x01000001#32 ≠ 0#24 ∧ Instr.sync ≠ .reset ∧ ∃ t, exec .sync base = .next t :=
  ⟨by decide, by decide, by decide, _, rfl⟩

theorem witness_NormResult :
    inError.err ≠ 0#3 ∧ opField 0x60000100#32 = 0x60#8 ∧ (argField 0x60000100#32).extractLsb' 8 16 ≠ 0#16 ∧
    base.err = 0#3 ∧ base.sb = [] ∧ Extremes [129#8, 129#8] 129 129 ∧ Extremes [128#8, 131#8, 129#8] 128 131 := by
  refine ⟨by decide, by decide, by decide, by decide, rfl, ?_, ?_⟩ <;> simp [Extremes]

/-- The bounds of the operands, and the sample whose formula gives the middle. -/
theorem witness_RescaleIsExactRational :
    (0 : Nat) < 255 ∧ 255 ≤ 255 ∧ rescale .floor 0 255 255 0x00#8 = 0x00#8 ∧ rescale .floor 0 255 255 0xFF#8 = 0xFF#8 ∧
    rescale .floor 128 130 95 0x81#8 = 128#8 := by decide

theorem witness_NormReachesTarget :
    base.err = 0#3 ∧ (127#8 : Byte).toNat ≤ 127 ∧ Extremes [128#8, 130#8] 128 130 ∧ (128 : Nat) < 130 := by
  refine ⟨by decide, by decide, ?_, by decide⟩; simp [Extremes]

theorem witness_NormIsIdempotent :
    base.err = 0#3 ∧ 1 ≤ (95#8 : Byte).toNat ∧ (95#8 : Byte).toNat ≤ 127 ∧
    Extremes [33#8, 128#8, 223#8] (128 - (95#8 : Byte).toNat) (128 + (95#8 : Byte).toNat) ∧
    ∃ t, exec (.norm 127#8) { base with sb := [128#8, 130#8] } = .next t := by
  refine ⟨by decide, by decide, by decide, ?_, _, rfl⟩; simp [Extremes]

/-- A draw behind one that is fixed already. -/
theorem witness_HostClockDraw :
    (after (step { base with clk := [1#48], host := [.clock 2#48] }) base).clk = [1#48, 2#48] := by decide

end Sys2Proof.Tests
end

section
/-! SUPPORT. What a step that goes on does to the samples, to the pulse trace and to the open parameters, said once. -/

namespace Sys2Proof.Machine

/-- From `s` to `t` some pulses, perhaps none, have been appended: their samples to `SB`, their durations to `PT`
(41_pulse.md R92, R100). -/
def Appends (s t : State) : Prop :=
  t.params = s.params ∧ ∃ ds, t.sb = s.sb ++ render s.params ds ∧ t.pt = s.pt ++ ds

theorem Appends.of_eq {s t : State} (hp : t.params = s.params) (hsb : t.sb = s.sb) (hpt : t.pt = s.pt) : Appends s t :=
  ⟨hp, [], by simp [hsb], by simp [hpt]⟩

theorem Appends.params {s t : State} (h : Appends s t) : t.params = s.params := h.1

theorem Appends.trans {s t u : State} (h₁ : Appends s t) (h₂ : Appends t u) : Appends s u := by
  obtain ⟨hp₁, ds₁, hsb₁, hpt₁⟩ := h₁
  obtain ⟨hp₂, ds₂, hsb₂, hpt₂⟩ := h₂
  exact ⟨hp₂.trans hp₁, ds₁ ++ ds₂, by simp [hsb₂, hsb₁, hp₁], by simp [hpt₂, hpt₁]⟩

theorem appends_emit (s : State) (ds : List Duration) : Appends s (s.emit ds) := ⟨rfl, ds, rfl, rfl⟩

/-- `ENCODE` is made of operations that append pulses or leave both traces alone. -/
theorem keptByParts_appends : KeptByParts Appends where
  refl _ := .of_eq rfl rfl rfl
  trans _ _ _ := Appends.trans
  emit := appends_emit
  goto _ _ := .of_eq rfl rfl rfl
  setBlk _ _ := .of_eq rfl rfl rfl
  setDone _ _ := .of_eq rfl rfl rfl
  buildRecord _ _ := .of_eq (by simp) (by simp) (by simp)
  storeFrame _ _ _ _ _ := .of_eq rfl rfl rfl
  loadChunk _ _ := .of_eq (by simp) (by simp) (by simp)

/-- What was appended to `PT` decides whether `SB` is within its capacity. -/
theorem Appends.withinCapacity_iff {s t : State} {ds : List Duration} (h : Appends s t) (hpt : t.pt = s.pt ++ ds) :
    t.withinCapacity = true ↔ s.Fits ds := by
  obtain ⟨hp, es, hsb, hpt'⟩ := h
  obtain rfl : ds = es := List.append_cancel_left (hpt.symm.trans hpt')
  rw [State.withinCapacity_iff, hp, hsb, List.length_append]

/-- What a command that ends has done to the two traces: `RESET` has emptied them, `NORM` has rewritten the samples,
every other command has appended pulses, none or as many as fit. -/
theorem Effect.traces {i : Instr} {s t : State} (h : Effect i s t) :
    (i = .reset ∧ t = s.clear) ∨
    (∃ a, i = .norm a ∧ t = { s with sb := normalizeSamples s.params.normRound a.toNat s.sb }) ∨
    (Appends s t ∧ (t.sb = s.sb ∨ t.withinCapacity = true)) := by
  cases h with
  | reset => exact .inl ⟨rfl, rfl⟩
  | norm a => exact .inr (.inl ⟨a, rfl, rfl⟩)
  | pulses _ ds _ _ _ hc => exact .inr (.inr ⟨appends_emit s ds, .inr hc⟩)
  | wrblk u c q _ _ hu hc => exact .inr (.inr ⟨keptByParts_appends.writeBlock s u c q hu, .inr hc⟩)
  | encode _ _ _ _ hc => exact .inr (.inr ⟨keptByParts_appends.encodeFile s, .inr hc⟩)
  | sticky => exact .inr (.inr ⟨.of_eq rfl rfl rfl, .inl rfl⟩)
  | crcinit => exact .inr (.inr ⟨.of_eq rfl rfl rfl, .inl rfl⟩)
  | crcbyte => exact .inr (.inr ⟨.of_eq rfl rfl rfl, .inl rfl⟩)
  | wrblkType => exact .inr (.inr ⟨.of_eq rfl rfl rfl, .inl rfl⟩)
  | encodeEmpty => exact .inr (.inr ⟨.of_eq rfl rfl rfl, .inl rfl⟩)
  | encodeLength => exact .inr (.inr ⟨.of_eq rfl rfl rfl, .inl rfl⟩)
  | bldhdr => exact .inr (.inr ⟨keptByParts_appends.buildRecord s _, .inl (State.buildRecord_sb s _)⟩)
  | bldftr => exact .inr (.inr ⟨keptByParts_appends.buildRecord s _, .inl (State.buildRecord_sb s _)⟩)

/-- Raising an error leaves the traces and the parameters alone. -/
theorem State.raise_keeps_traces (s : State) (e : ErrCause) :
    (s.raise e).params = s.params ∧ (s.raise e).sb = s.sb ∧ (s.raise e).pt = s.pt := by
  rw [State.raise_eq]
  split <;> exact ⟨rfl, rfl, rfl⟩

/-- A host write of a register leaves the traces and the parameters alone. -/
theorem State.writeReg_keeps_traces (s : State) (reg : Nat) (v : BitVec 32) :
    (s.writeReg reg v).params = s.params ∧ (s.writeReg reg v).sb = s.sb ∧ (s.writeReg reg v).pt = s.pt := by
  unfold State.writeReg
  split <;> exact ⟨rfl, rfl, rfl⟩

/-- No move of the host but a command word reaches the traces or the parameters. -/
theorem State.hostMove_keeps_traces {s t : State} {m : HostMove} (h : s.hostMove m = .next t) :
    t.params = s.params ∧ t.sb = s.sb ∧ t.pt = s.pt := by
  obtain ⟨reg, v, -, rfl⟩ | ⟨i, v, -, rfl⟩ | ⟨i, v, -, -, rfl⟩ | ⟨i, v, -, -, rfl⟩ | ⟨n, rfl⟩ | ⟨c, -, rfl⟩ :=
    State.hostMove_cases h
  · exact s.writeReg_keeps_traces reg v
  all_goals exact ⟨rfl, rfl, rfl⟩

/-- What a step that goes on has done to the two traces: emptied them, rewritten the samples by `NORM`, or appended pulses,
none or as many as fit. -/
inductive TraceStep (s t : State) : Prop where
  | cleared (hp : t.params = s.params) (hsb : t.sb = []) (hpt : t.pt = [])
  | rescaled (w : CmdWord) (rest : List HostMove) (a : Byte) (hw : s.host = .write 0 w :: rest)
    (hd : decode w = .ok (.norm a)) (hp : t.params = s.params) (hlen : t.sb.length = s.sb.length)
  | appended (happ : Appends s t) (hroom : t.sb = s.sb ∨ t.withinCapacity = true)

theorem TraceStep.of_kept {s t : State} (h : t.params = s.params ∧ t.sb = s.sb ∧ t.pt = s.pt) : TraceStep s t := by
  obtain ⟨hp, hsb, hpt⟩ := h
  exact .appended (.of_eq hp hsb hpt) (.inl hsb)

theorem traceStep_of_step {s t : State} (h : step s = .next t) : TraceStep s t := by
  obtain ⟨w, rest, i, hw, hd, hi⟩ | ⟨w, rest, e, -, -, rfl⟩ | ⟨-, rfl⟩ | ⟨m, rest, -, -, hm⟩ := step_cases h
  · obtain ⟨-, rfl⟩ | ⟨a, rfl, rfl⟩ | ⟨happ, hroom⟩ := (effect_of_exec hi).traces
    · exact .cleared rfl rfl rfl
    · exact .rescaled w rest a hw hd rfl (length_normalizeSamples _ _ _)
    · exact .appended happ hroom
  · exact .of_kept ((s.withMoves rest).raise_keeps_traces _)
  · exact .of_kept ⟨rfl, rfl, rfl⟩
  · exact .of_kept (State.hostMove_keeps_traces (s := s.withMoves rest) hm)

theorem TraceStep.params {s t : State} (h : TraceStep s t) : t.params = s.params := by
  cases h with
  | cleared hp => exact hp
  | rescaled _ _ _ _ _ hp => exact hp
  | appended happ => exact happ.params

/-- Appending pulses keeps the samples the rendering of the trace, for `Render` is a homomorphism (R90). -/
theorem Appends.render_eq {s t : State} (h : Appends s t) (hs : s.sb = render s.params s.pt) :
    t.sb = render t.params t.pt := by
  obtain ⟨hp, ds, hsb, hpt⟩ := h
  rw [hsb, hpt, hp, render_append, hs]

end Sys2Proof.Machine
end

section
/-! PROOFS. The obligations on what every step keeps: the parameters, the capacity of `SB`, the rendering of `PT`. -/

namespace Sys2Proof.Machine

/-- Settles O19: every way a step treats the traces leaves `params`. -/
theorem parametersStayFixed : Obligations.ParametersStayFixed :=
  fun _ _ h => (traceStep_of_step h).params

/-- Settles O18: a step empties `SB`, keeps its length, or appends pulses that fit. -/
theorem capacityIsKept : Obligations.CapacityIsKept := by
  intro s t hs h n hn
  have ht := traceStep_of_step h
  have hcap : s.sb.length ≤ n := hs n (ht.params ▸ hn)
  cases ht with
  | cleared _ hsb => simp [hsb]
  | rescaled _ _ _ _ _ _ hlen => exact hlen ▸ hcap
  | appended _ hroom =>
    obtain hsb | hroom := hroom
    · exact hsb ▸ hcap
    · exact t.withinCapacity_iff.mp hroom n hn

/-- Settles O20: without `NORM` both traces are emptied, or the same pulses are appended to both. -/
theorem samplesRenderPulses : Obligations.SamplesRenderPulses := by
  intro s t hs h hnorm
  cases traceStep_of_step h with
  | cleared _ hsb hpt => rw [hsb, hpt, render_nil]
  | rescaled w rest a hw hd => exact absurd hd (hnorm w rest a hw)
  | appended happ => exact happ.render_eq hs

end Sys2Proof.Machine
end

section
/-! SUPPORT. When an appending command is stuck, and that being stuck on the capacity is the only other end of a command. -/

namespace Sys2Proof.Machine

/-- The command has answered a next state, or the fault of a finite sample buffer (93 U6; log 9). -/
def EndsOrFull (s : State) (r : Result) : Prop :=
  (∃ t, r = .next t) ∨ (r = .fault .sampleBufferFull ∧ ∃ n, s.params.sbCapacity = some n)

theorem EndsOrFull.next (s t : State) : EndsOrFull s (.next t) := .inl ⟨t, rfl⟩

theorem State.finish_full_iff (s : State) : s.finish = .fault .sampleBufferFull ↔ ¬s.withinCapacity = true := by
  unfold State.finish
  split <;> simp_all

/-- Only a finite capacity can be overrun. -/
theorem State.finish_endsOrFull {s t : State} (hp : t.params = s.params) : EndsOrFull s t.finish := by
  by_cases hc : t.withinCapacity = true
  · exact .inl ⟨t, State.finish_ok hc⟩
  · refine .inr ⟨t.finish_full_iff.mpr hc, Option.ne_none_iff_exists'.mp fun hn => hc ?_⟩
    rw [State.withinCapacity_iff, hp, hn]
    exact nofun

/-- A command that appends `ds` is stuck exactly if their samples do not fit. -/
theorem Appends.finish_full_iff {s t : State} {ds : List Duration} (h : Appends s t) (hpt : t.pt = s.pt ++ ds) :
    t.finish = .fault .sampleBufferFull ↔ ¬s.Fits ds := by
  rw [State.finish_full_iff, h.withinCapacity_iff hpt]

/-- A command that is refused while an error is held ends then, too. -/
theorem EndsOrFull.unlessError {s : State} {run : State → Result} (h : EndsOrFull s (run s)) :
    EndsOrFull s (s.unlessError run) := by
  unfold State.unlessError
  split
  · exact h
  · exact .next s s

/-- Every command ends, or is stuck on a finite sample buffer. The cases not named are the commands of the pulse encoder. -/
theorem exec_endsOrFull (i : Instr) (s : State) : EndsOrFull s (exec i s) := by
  cases i with
  | reset => exact .next s s.clear
  | crcinit =>
    apply EndsOrFull.unlessError
    exact .next s _
  | crcbyte v =>
    apply EndsOrFull.unlessError
    exact .next s _
  | wrblk t c q =>
    rw [exec_wrblk]
    apply EndsOrFull.unlessError
    split
    · exact .next s _
    · exact State.finish_endsOrFull (State.writeBlock_params s t c q)
  | bldhdr =>
    apply EndsOrFull.unlessError
    exact .next s _
  | bldftr =>
    apply EndsOrFull.unlessError
    exact .next s _
  | encode =>
    rw [exec_encode]
    apply EndsOrFull.unlessError
    split
    · exact .next s _
    · split
      · exact .next s _
      · exact State.finish_endsOrFull (keptByParts_appends.encodeFile s).params
  | norm a =>
    apply EndsOrFull.unlessError
    exact .next s _
  | _ =>
    apply EndsOrFull.unlessError
    exact State.finish_endsOrFull rfl

/-- Settles O25: without a capacity there is nothing to be stuck on. -/
theorem everyCommandEnds : Obligations.EveryCommandEnds := by
  intro i s
  refine ⟨fun hnone => ?_, exec_endsOrFull i s⟩
  obtain ht | ⟨-, n, hn⟩ := exec_endsOrFull i s
  · exact ht
  · simp [hnone] at hn

end Sys2Proof.Machine
end

section
/-! SUPPORT. The pulses of `WRBLK` and of a whole `ENCODE` in the terms of the spec's tables. -/

namespace Sys2Proof.Machine

/-! ### Bits and frames -/

@[simp] theorem map_bitPulse (bs : List Bool) : bs.map bitPulse = durations bs := rfl

@[simp] theorem durations_append (bs cs : List Bool) : durations (bs ++ cs) = durations bs ++ durations cs :=
  List.map_append

theorem blockBits_eq (g : Nat) (frame : List Byte) : blockBits g frame = onMedium g frame := by
  have hbits : byteBits = frameBits := rfl
  simp [blockBits, onMedium, gapBits_eq, ones, syncField, Config.syncBits, preamble, postamble, hbits]

theorem State.blockFrame_eq (s : State) (t : BitVec 2) (c : BitVec 1) (q : Half16) :
    s.blockFrame t c q = frameBytes s.crcMode (blockTag t) q c (s.payload t) := rfl

/-- A block appends its bits on the medium (42_block_framer.md R108). -/
theorem State.writeBlock_pulses (s : State) (t : BitVec 2) (c : BitVec 1) (q : Half16) :
    (s.writeBlock t c q).pt = s.pt ++
      durations (onMedium s.params.blockTrailGap (frameBytes s.crcMode (blockTag t) q c (s.payload t))) := by
  rw [State.writeBlock_pt, blockBits_eq, State.blockFrame_eq, map_bitPulse]

theorem State.gap_pulses (s : State) (n : Nat) :
    (s.emitBits (gapBits n)).pt = s.pt ++ durations (ones (9 * n)) := by
  rw [State.emitBits_pt, gapBits_eq, map_bitPulse, ones]

/-! ### The payload of a block -/

theorem State.payload_eq (s : State) (t : BitVec 2) :
    s.payload t = (List.range (payloadLen t)).map (s.readByte .pb) := by
  simp [State.payload, State.readBytes, State.readByte, Memory.readRun]

theorem State.payload_congr {s t : State} (h : t.pb = s.pb) (u : BitVec 2) : t.payload u = s.payload u := by
  simp only [State.payload, State.readBytes, State.buffer, h]

@[simp] theorem State.goto_payload (s : State) (q : SeqState) (u : BitVec 2) : (s.goto q).payload u = s.payload u :=
  State.payload_congr (s.goto_pb q) u

@[simp] theorem State.writeBlock_payload (s : State) (t : BitVec 2) (c : BitVec 1) (q : Half16) (u : BitVec 2) :
    (s.writeBlock t c q).payload u = s.payload u := State.payload_congr (s.writeBlock_pb t c q) u

/-- A block of the length just written to `PB` carries what was written. -/
theorem State.payload_of_writeRun {s : State} {m : Memory} {bs : List Byte} (h : s.pb = m.writeRun 0 bs) (t : BitVec 2)
    (hlen : payloadLen t = bs.length) : s.payload t = bs := by
  simp only [State.payload, State.readBytes, State.buffer, h, hlen, Memory.readRun_writeRun]

/-- The record just built is the payload of every type but `D` (R58, R114). -/
theorem State.payload_buildRecord (s : State) (tag4 : List Byte) {t : BitVec 2} (ht : payloadLen t = 80) :
    (s.buildRecord tag4).payload t = s.recordNow tag4 :=
  State.payload_of_writeRun (s.buildRecord_pb tag4) t (by simp [ht, State.recordNow])

theorem State.payload_loadChunk (s : State) (k : Nat) : (s.loadChunk k).payload 1#2 = s.chunk k :=
  State.payload_of_writeRun (s.loadChunk_pb k) 1#2 (by simp [payloadLen, Config.dataLen, State.chunk])

/-! ### What an `ENCODE` reads and does not write -/

/-- The fields that belong to the host and that no part of an `ENCODE` writes are the same. -/
structure HostFieldsKept (s t : State) : Prop where
  params : t.params = s.params
  ctrl : t.ctrl = s.ctrl
  plen : t.plen = s.plen
  namelen : t.namelen = s.namelen
  ftype : t.ftype = s.ftype
  pm : t.pm = s.pm
  name : t.name = s.name
  host : t.host = s.host
  lastRead : t.lastRead = s.lastRead

theorem HostFieldsKept.trans {s t u : State} (h₁ : HostFieldsKept s t) (h₂ : HostFieldsKept t u) :
    HostFieldsKept s u where
  params := h₂.params.trans h₁.params
  ctrl := h₂.ctrl.trans h₁.ctrl
  plen := h₂.plen.trans h₁.plen
  namelen := h₂.namelen.trans h₁.namelen
  ftype := h₂.ftype.trans h₁.ftype
  pm := h₂.pm.trans h₁.pm
  name := h₂.name.trans h₁.name
  host := h₂.host.trans h₁.host
  lastRead := h₂.lastRead.trans h₁.lastRead

theorem keptByParts_hostFieldsKept : KeptByParts HostFieldsKept where
  refl _ := by constructor <;> rfl
  trans _ _ _ := HostFieldsKept.trans
  emit _ _ := by constructor <;> rfl
  goto _ _ := by constructor <;> rfl
  setBlk _ _ := by constructor <;> rfl
  setDone _ _ := by constructor <;> rfl
  buildRecord _ _ := by constructor <;> simp
  storeFrame _ _ _ _ _ := by constructor <;> rfl
  loadChunk _ _ := by constructor <;> simp

section
variable {s t : State} (h : HostFieldsKept s t)
include h

theorem HostFieldsKept.crcMode : t.crcMode = s.crcMode := by simp only [State.crcMode, h.ctrl]

theorem HostFieldsKept.pairOnMedium (tag : Byte) (q : Half16) (payload : Nat → List Byte) :
    pairOnMedium t tag q payload = pairOnMedium s tag q payload := by
  simp only [Machine.pairOnMedium, h.params, h.crcMode]

theorem HostFieldsKept.chunkBytes (k : Nat) : chunkBytes t k = chunkBytes s k := State.chunk_congr h.plen h.pm k

theorem HostFieldsKept.nameBytes (n : Nat) : t.readBytes .name 0 n = s.readBytes .name 0 n := by
  simp only [State.readBytes, State.buffer, h.name]

end

/-! ### Clock samples -/

/-- `t` is at the clock sample after the `n` next ones of `s` (43_metadata.md R111; log 2). -/
def ClockAfter (n : Nat) (s t : State) : Prop :=
  t.clk = s.clk.drop n ∧ t.clkReads = s.clkReads + (n - s.clk.length)

theorem ClockAfter.of_eq {s t : State} (hc : t.clk = s.clk) (hr : t.clkReads = s.clkReads) : ClockAfter 0 s t :=
  ⟨by simp [hc], by simp [hr]⟩

theorem ClockAfter.congr {n : Nat} {s t u : State} (h : ClockAfter n s t) (hc : u.clk = t.clk)
    (hr : u.clkReads = t.clkReads) : ClockAfter n s u := ⟨hc.trans h.1, hr.trans h.2⟩

theorem ClockAfter.trans {m n : Nat} {s t u : State} (h₁ : ClockAfter m s t) (h₂ : ClockAfter n t u) :
    ClockAfter (m + n) s u := by
  obtain ⟨hc₁, hr₁⟩ := h₁
  obtain ⟨hc₂, hr₂⟩ := h₂
  refine ⟨by rw [hc₂, hc₁, List.drop_drop], ?_⟩
  rw [hr₂, hr₁, hc₁, List.length_drop]
  omega

theorem clockAfter_afterClockSample (s : State) : ClockAfter 1 s s.afterClockSample := by
  refine ⟨by simp, ?_⟩
  rw [State.afterClockSample_clkReads]
  cases s.clk <;> simp

theorem clockAfter_buildRecord (s : State) (tag4 : List Byte) : ClockAfter 1 s (s.buildRecord tag4) :=
  (clockAfter_afterClockSample s).congr (by simp) (by simp)

theorem clockAfter_rebuildRecord (s : State) (tag4 : List Byte) :
    ClockAfter (if s.params.metaPerCopy then 1 else 0) s (s.rebuildRecord tag4) := by
  unfold State.rebuildRecord
  split
  · exact clockAfter_buildRecord s tag4
  · exact .of_eq rfl rfl

theorem clockAfter_repeat (n : Nat) (s : State) : ClockAfter n s (Nat.repeat State.afterClockSample n s) := by
  induction n with
  | zero => exact .of_eq rfl rfl
  | succ n ih => exact ih.trans (clockAfter_afterClockSample _)

/-- The next sample depends on how many have been taken and on nothing else. -/
theorem ClockAfter.clockSample {n : Nat} {s t : State} (h : ClockAfter n s t) : t.clockSample = s.clockAt n := by
  obtain ⟨hc, hr⟩ := h
  obtain ⟨hc', hr'⟩ := clockAfter_repeat n s
  simp only [State.clockAt, State.clockSample, hc, hr, hc', hr']

theorem ClockAfter.clockAt {m : Nat} {s t : State} (h : ClockAfter m s t) (n : Nat) : t.clockAt n = s.clockAt (m + n) :=
  (h.trans (clockAfter_repeat n t)).clockSample

/-! ### The two copies of a record -/

/-- The record a build gives after `n` clock samples (43_metadata.md R113; log 2). -/
def recordAt (s : State) (tag4 : List Byte) (n : Nat) : List Byte :=
  recordOf s.params tag4 (s.readBytes .name 0 s.namelen.toNat) s.ftype (s.clockAt n)

/-- Which clock sample of its logical record a copy shows (44_sequencer.md R123; log 14). -/
def copyClock (s : State) (copy : Nat) : Nat := if s.params.metaPerCopy then copy else 0

/-- The number of clock samples a logical record takes (R123; log 14). -/
def recordDraws (s : State) : Nat := if s.params.metaPerCopy then 2 else 1

theorem headerRecord_eq (s : State) (copy : Nat) : headerRecord s copy = recordAt s headerTag (copyClock s copy) := by
  simp [headerRecord, recordAt, headerTag, recordClock, copyClock]

theorem footerRecord_eq (s : State) (copy : Nat) :
    footerRecord s copy = recordAt s footerTag (recordDraws s + copyClock s copy) := by
  unfold footerRecord recordAt footerTag recordClock copyClock recordDraws
  split <;> rfl

/-- A build draws on the host's fields and the next clock sample alone (R109, R111). -/
theorem recordNow_eq {n : Nat} {s t : State} (hk : HostFieldsKept s t) (hc : ClockAfter n s t) (tag4 : List Byte) :
    t.recordNow tag4 = recordAt s tag4 n := by
  simp only [State.recordNow, recordAt, hk.params, hk.namelen, hk.nameBytes, hk.ftype, hc.clockSample]

theorem recordAt_shift {m : Nat} {s t : State} (hk : HostFieldsKept s t) (hc : ClockAfter m s t) (tag4 : List Byte)
    (n : Nat) : recordAt t tag4 n = recordAt s tag4 (m + n) := by
  simp only [recordAt, hk.params, hk.namelen, hk.nameBytes, hk.ftype, hc.clockAt]

/-- Building a record again gives copy 1 its own record, or leaves `PB` as it was. -/
theorem payload_rebuildRecord {s t : State} (hk : HostFieldsKept s t) (hc : ClockAfter 1 s t) {tag4 : List Byte}
    {u : BitVec 2} (hu : payloadLen u = 80) (hp : t.payload u = recordAt s tag4 0) :
    (t.rebuildRecord tag4).payload u = recordAt s tag4 (copyClock s 1) := by
  unfold State.rebuildRecord copyClock
  rw [hk.params]
  split
  · rw [State.payload_buildRecord t tag4 hu, recordNow_eq hk hc]
  · exact hp

@[simp] theorem State.rebuildRecord_pt (s : State) (tag4 : List Byte) : (s.rebuildRecord tag4).pt = s.pt := by
  unfold State.rebuildRecord
  split
  · exact s.buildRecord_pt tag4
  · rfl

/-- The build and copy 0 of a logical record. -/
def State.firstCopy (s : State) (tag4 : List Byte) (u : BitVec 2) (q : Half16) (mid : SeqState) : State :=
  ((s.buildRecord tag4).writeBlock u 0#1 q).goto mid

/-- What `ENCODE` does alike for both records: build, copy 0, build again if `META_PER_COPY` says so, copy 1 (R123). -/
def State.recordPair (s : State) (tag4 : List Byte) (u : BitVec 2) (q : Half16) (mid : SeqState) : State :=
  ((s.firstCopy tag4 u q mid).rebuildRecord tag4).writeBlock u 1#1 q

section
variable (s : State) (tag4 : List Byte) {u : BitVec 2} (q : Half16) (mid : SeqState)

theorem firstCopy_hostFieldsKept (hu : u ≠ 3#2) : HostFieldsKept s (s.firstCopy tag4 u q mid) :=
  ((keptByParts_hostFieldsKept.buildRecord s tag4).trans
    (keptByParts_hostFieldsKept.writeBlock _ u 0#1 q hu)).trans (keptByParts_hostFieldsKept.goto _ mid)

theorem clockAfter_firstCopy : ClockAfter 1 s (s.firstCopy tag4 u q mid) :=
  (clockAfter_buildRecord s tag4).congr (by simp only [State.firstCopy, State.goto_clk, State.writeBlock_clk])
    (by simp only [State.firstCopy, State.goto_clkReads, State.writeBlock_clkReads])

theorem recordPair_hostFieldsKept (hu : u ≠ 3#2) : HostFieldsKept s (s.recordPair tag4 u q mid) :=
  ((firstCopy_hostFieldsKept s tag4 q mid hu).trans (keptByParts_hostFieldsKept.rebuildRecord _ tag4)).trans
    (keptByParts_hostFieldsKept.writeBlock _ u 1#1 q hu)

theorem clockAfter_recordPair (hu : u ≠ 3#2) : ClockAfter (recordDraws s) s (s.recordPair tag4 u q mid) := by
  have h := (clockAfter_firstCopy s tag4 (u := u) q mid).trans (clockAfter_rebuildRecord _ tag4)
  rw [(firstCopy_hostFieldsKept s tag4 q mid hu).params] at h
  have hn : 1 + (if s.params.metaPerCopy then 1 else 0) = recordDraws s := by
    unfold recordDraws
    split <;> rfl
  exact (hn ▸ h).congr (State.writeBlock_clk ..) (State.writeBlock_clkReads ..)

/-- The two copies of a logical record on the medium (R122, R123). -/
theorem recordPair_pulses (hu : u ≠ 3#2) (hlen : payloadLen u = 80) :
    (s.recordPair tag4 u q mid).pt = s.pt ++
      durations (pairOnMedium s (blockTag u) q (fun copy => recordAt s tag4 (copyClock s copy))) := by
  have hk := firstCopy_hostFieldsKept s tag4 q mid hu
  have hk' := hk.trans (keptByParts_hostFieldsKept.rebuildRecord _ tag4)
  have hp0 : (s.buildRecord tag4).payload u = recordAt s tag4 0 := by
    rw [State.payload_buildRecord s tag4 hlen]
    exact recordNow_eq (keptByParts_hostFieldsKept.refl s) (.of_eq rfl rfl) tag4
  have hp1 := payload_rebuildRecord hk (clockAfter_firstCopy s tag4 q mid) hlen
    (by rw [State.firstCopy, State.goto_payload, State.writeBlock_payload, hp0])
  have hc0 : copyClock s 0 = 0 := by simp [copyClock]
  rw [State.recordPair, State.writeBlock_pulses, hk'.params, hk'.crcMode, hp1, State.rebuildRecord_pt, State.firstCopy,
    State.goto_pt, State.writeBlock_pulses, hp0]
  simp [pairOnMedium, hc0]

end

/-- The same, told from an earlier state of the same `ENCODE`, `m` clock samples before. -/
theorem recordPair_pulses_since {m : Nat} {s t : State} (hk : HostFieldsKept s t) (hc : ClockAfter m s t)
    (tag4 : List Byte) {u : BitVec 2} (q : Half16) (mid : SeqState) (hu : u ≠ 3#2) (hlen : payloadLen u = 80) :
    (t.recordPair tag4 u q mid).pt = t.pt ++
      durations (pairOnMedium s (blockTag u) q (fun copy => recordAt s tag4 (m + copyClock s copy))) := by
  have hcopy : copyClock t = copyClock s := by
    funext copy
    simp only [copyClock, hk.params]
  simp only [recordPair_pulses t tag4 q mid hu hlen, hk.pairOnMedium, recordAt_shift hk hc, hcopy]

end Sys2Proof.Machine
end

section
/-! SUPPORT. An `ENCODE` appends the file of 30_encoding.md R73, part by part. -/

namespace Sys2Proof.Machine

theorem KeptByParts.emitBits {R : State → State → Prop} (h : KeptByParts R) (s : State) (bs : List Bool) :
    R s (s.emitBits bs) := h.emit s _

theorem State.encodeHeader_eq (s : State) :
    s.encodeHeader = ((((((s.emitBits (gapBits Config.fileGapBytes)).goto .hdr0).recordPair headerTag 0#2
      s.params.hdrSeq .hdr1).goto .ibgh).emitBits (gapBits Config.gapAfterHeader)).goto .dat0) := by
  simp only [State.encodeHeader, State.recordPair, State.firstCopy, State.goto_params, State.emitBits_params,
    State.writeBlock_params, State.buildRecord_params]

theorem State.encodeFooter_eq (s : State) (b : Nat) :
    s.encodeFooter b = ((((((s.setBlk (BitVec.ofNat 16 (b + 1))).recordPair footerTag 2#2 (BitVec.ofNat 16 (b + 1))
      .ftr1).goto .fgap2).emitBits (gapBits Config.fileGapBytes)).goto .done).setDone true) := rfl

/-- The medium's part for the data blocks `1` to `n` and their gaps (30_encoding.md R73). -/
def dataOnMedium (s : State) (n : Nat) : List Bool :=
  (List.range n).flatMap fun j =>
    pairOnMedium s 0x44#8 (BitVec.ofNat 16 (j + 1)) (fun _ => chunkBytes s (j + 1)) ++ ones 2700

theorem fileOnMedium_eq (s : State) :
    fileOnMedium s = ones 5526 ++ pairOnMedium s 0x48#8 s.params.hdrSeq (headerRecord s) ++ ones 900 ++
      dataOnMedium s s.blockCount ++
      pairOnMedium s 0x45#8 (BitVec.ofNat 16 (s.blockCount + 1)) (footerRecord s) ++ ones 5526 := rfl

section
variable {s t : State} (hk : HostFieldsKept s t)
include hk

theorem encodeHeader_pulses (hc : ClockAfter 0 s t) :
    t.encodeHeader.pt = t.pt ++
      durations (ones 5526 ++ pairOnMedium s 0x48#8 s.params.hdrSeq (headerRecord s) ++ ones 900) := by
  have hk' := (hk.trans (keptByParts_hostFieldsKept.emitBits t (gapBits Config.fileGapBytes))).trans
    (keptByParts_hostFieldsKept.goto _ .hdr0)
  have hc' : ClockAfter 0 s ((t.emitBits (gapBits Config.fileGapBytes)).goto .hdr0) := hc.congr rfl rfl
  have hrec : headerRecord s = fun copy => recordAt s headerTag (0 + copyClock s copy) := by
    funext copy
    rw [headerRecord_eq, Nat.zero_add]
  rw [State.encodeHeader_eq, State.goto_pt, State.gap_pulses, State.goto_pt, recordPair_pulses_since hk' hc' _ _ _
    (by decide) (by decide), State.goto_pt, State.gap_pulses, ← hrec, hk.params]
  simp [Config.fileGapBytes, Config.gapAfterHeader, blockTag]

/-- The two copies of a data block and its gap (44_sequencer.md R120, R124). -/
theorem encodeChunk_pulses (b k : Nat) :
    (t.encodeChunk b k).pt = t.pt ++
      durations (pairOnMedium s 0x44#8 (BitVec.ofNat 16 k) (fun _ => chunkBytes s k) ++ ones 2700) := by
  have hk' := (hk.trans (keptByParts_hostFieldsKept.setBlk t (BitVec.ofNat 16 k))).trans
    (keptByParts_hostFieldsKept.loadChunk _ k)
  have hp : ((t.setBlk (BitVec.ofNat 16 k)).loadChunk k).payload 1#2 = chunkBytes s k := by
    rw [State.payload_loadChunk, State.setBlk_chunk]
    exact hk.chunkBytes k
  simp only [State.encodeChunk, State.goto_pt, State.gap_pulses, State.writeBlock_pulses, State.loadChunk_pt,
    State.setBlk_pt, State.goto_params, State.writeBlock_params, State.goto_crcMode, State.writeBlock_crcMode,
    State.goto_payload, State.writeBlock_payload, hp, hk'.params, hk'.crcMode]
  simp [pairOnMedium, blockTag, Config.gapAfterData]

theorem encodeChunks_pulses (b n : Nat) : (t.encodeChunks b n).pt = t.pt ++ durations (dataOnMedium s n) := by
  induction n with
  | zero => simp [State.encodeChunks, dataOnMedium, durations]
  | succ n ih =>
    rw [State.encodeChunks, encodeChunk_pulses (hk.trans (keptByParts_hostFieldsKept.encodeChunks t b n)), ih]
    simp [dataOnMedium, List.range_succ, Config.firstDataSeq]

theorem encodeFooter_pulses (hc : ClockAfter (recordDraws s) s t) (b : Nat) :
    (t.encodeFooter b).pt = t.pt ++
      durations (pairOnMedium s 0x45#8 (BitVec.ofNat 16 (b + 1)) (footerRecord s) ++ ones 5526) := by
  have hk' := hk.trans (keptByParts_hostFieldsKept.setBlk t (BitVec.ofNat 16 (b + 1)))
  have hc' : ClockAfter (recordDraws s) s (t.setBlk (BitVec.ofNat 16 (b + 1))) := hc.congr rfl rfl
  have hrec : footerRecord s = fun copy => recordAt s footerTag (recordDraws s + copyClock s copy) := by
    funext copy
    exact footerRecord_eq s copy
  rw [State.encodeFooter_eq, State.setDone_pt, State.goto_pt, State.gap_pulses, State.goto_pt,
    recordPair_pulses_since hk' hc' _ _ _ (by decide) (by decide), State.setBlk_pt, ← hrec]
  simp [Config.fileGapBytes, blockTag]

end

theorem clockAfter_encodeHeader (s : State) : ClockAfter (recordDraws s) s s.encodeHeader := by
  have hc : ClockAfter 0 s ((s.emitBits (gapBits Config.fileGapBytes)).goto .hdr0) := .of_eq rfl rfl
  have h := hc.trans (clockAfter_recordPair _ headerTag (u := 0#2) s.params.hdrSeq .hdr1 (by decide))
  rw [Nat.zero_add] at h
  rw [State.encodeHeader_eq]
  exact h.congr rfl rfl

theorem clockAfter_encodeChunk (s : State) (b k : Nat) : ClockAfter 0 s (s.encodeChunk b k) :=
  .of_eq (by simp [State.encodeChunk]) (by simp [State.encodeChunk])

theorem clockAfter_encodeChunks (s : State) (b n : Nat) : ClockAfter 0 s (s.encodeChunks b n) := by
  induction n with
  | zero => exact .of_eq rfl rfl
  | succ n ih => exact ih.trans (clockAfter_encodeChunk _ b _)

/-- An `ENCODE` that is not refused appends the whole file (44_sequencer.md R124; 30_encoding.md R73). -/
theorem encodeFile_pulses (s : State) : s.encodeFile.pt = s.pt ++ durations (fileOnMedium s) := by
  have hk₀ := keptByParts_hostFieldsKept.encodeStart s
  have hk₁ := hk₀.trans (keptByParts_hostFieldsKept.encodeHeader s.encodeStart)
  have hk₂ := hk₁.trans (keptByParts_hostFieldsKept.encodeChunks s.encodeStart.encodeHeader s.blockCount s.blockCount)
  have hc₀ : ClockAfter 0 s s.encodeStart := .of_eq rfl rfl
  have hc₁ := hc₀.trans (clockAfter_encodeHeader s.encodeStart)
  have hc₂ := hc₁.trans (clockAfter_encodeChunks _ s.blockCount s.blockCount)
  rw [Nat.zero_add, Nat.add_zero] at hc₂
  have hpt : s.encodeStart.pt = s.pt := rfl
  rw [State.encodeFile, encodeFooter_pulses hk₂ hc₂, encodeChunks_pulses hk₁, encodeHeader_pulses hk₀ hc₀, hpt,
    fileOnMedium_eq]
  simp only [durations_append, List.append_assoc]

end Sys2Proof.Machine
end

section
/-! PROOFS. The obligation on a full sample buffer. -/

namespace Sys2Proof.Machine

/-- `WRBLK` of a legal type is stuck exactly if the block does not fit. -/
theorem exec_wrblk_full_iff {s : State} (he : s.err = 0#3) {u : BitVec 2} (hu : u ≠ 3#2) (c : BitVec 1) (q : Half16) :
    exec (.wrblk u c q) s = .fault .sampleBufferFull ↔
      ¬s.Fits (durations (onMedium s.params.blockTrailGap
        (frameBytes s.crcMode (blockTag u) q c ((List.range (payloadLen u)).map (s.readByte .pb))))) := by
  rw [exec_wrblk, State.unlessError_run he, if_neg hu, ← State.payload_eq]
  exact (keptByParts_appends.writeBlock s u c q hu).finish_full_iff (s.writeBlock_pulses u c q)

/-- An accepted `ENCODE` is stuck exactly if the file does not fit. -/
theorem exec_encode_full_iff {s : State} (h : s.EncodeAccepted) :
    exec .encode s = .fault .sampleBufferFull ↔ ¬s.Fits (durations (fileOnMedium s)) := by
  obtain ⟨he, hplen, hmax⟩ := h
  have hshort : ¬65535 < s.blockCount + 1 := fun hlong => Nat.not_lt.mpr hmax (s.tooLong_iff.mp hlong)
  rw [exec_encode, State.unlessError_run he, if_neg hplen, if_neg hshort]
  exact (keptByParts_appends.encodeFile s).finish_full_iff (encodeFile_pulses s)

/-- Settles O40: each of these commands appends its pulses and is then stuck exactly if they have overrun the buffer. -/
theorem pulseCommandsStopWhenFull : Obligations.PulseCommandsStopWhenFull := by
  refine ⟨fun i ds s hp he => ?_, fun u c q s n tag hu he => ?_, fun s h => exec_encode_full_iff h⟩
  · rw [exec_of_pulsesOf hp he]
    exact (appends_emit s ds).finish_full_iff rfl
  · obtain ⟨rfl, rfl, rfl⟩ | ⟨rfl, rfl, rfl⟩ | ⟨rfl, rfl, rfl⟩ := hu
    · exact exec_wrblk_full_iff he (by decide) c q
    · exact exec_wrblk_full_iff he (by decide) c q
    · exact exec_wrblk_full_iff he (by decide) c q

end Sys2Proof.Machine
end

section
/-! SUPPORT. The host's register accesses: what a read returns after a write, and what a write leaves alone. -/

namespace Sys2Proof.Machine

/-- The host's move on a register other than `CMD` is made, not decoded. -/
theorem step_of_register_write {s : State} {rest : List HostMove} {reg : Nat} {v : BitVec 32}
    (h : s.host = .write reg v :: rest) (hreg : reg ≠ 0) : step s = .next ((s.withMoves rest).writeReg reg v) :=
  step_of_move h fun _ e => hreg (HostMove.write.inj e).1

@[simp] theorem State.readReg_withMoves (s : State) (moves : List HostMove) (reg : Nat) :
    (s.withMoves moves).readReg reg = s.readReg reg := rfl

/-- `CMD` and the registers that do not exist read 0 (10_state.md R15, R27). -/
theorem State.readReg_eq_zero (s : State) {reg : Nat} (h : reg = 0 ∨ 10 ≤ reg) : s.readReg reg = 0 := by
  unfold State.readReg
  split
  case h_10 => rfl
  all_goals omega

/-- A byte whose upper three bits are 0 is what its lower five bits make. -/
theorem and_0x1F_of_reserved_zero : ∀ x : BitVec 8, x.extractLsb' 5 3 = 0#3 → x &&& 0x1F#8 = x := by decide

/-- A byte whose upper six bits are 0 is what its lower two bits make. -/
theorem and_0x03_of_reserved_zero : ∀ x : BitVec 8, x.extractLsb' 2 6 = 0#6 → x &&& 0x03#8 = x := by decide

/-- The reserved bits that a read of `STATUS` and of `CTRL` masks are 0 in a legal state. -/
theorem State.StatusOk.readReg {s : State} (h : s.StatusOk) :
    s.readReg 1 = s.status.toNat ∧ s.readReg 2 = s.ctrl.toNat := by
  obtain ⟨-, -, hstatus, hctrl⟩ := h
  exact ⟨congrArg BitVec.toNat (and_0x1F_of_reserved_zero _ hstatus),
    congrArg BitVec.toNat (and_0x03_of_reserved_zero _ hctrl)⟩

/-- A value written to `CTRL` is masked by the write and again by the read; both leave its two lowest bits. -/
theorem toNat_ctrl_masked (v : BitVec 32) : (v.setWidth 8 &&& 0x03#8 &&& 0x03#8).toNat = v.toNat % 4 := by
  have hmask : (v.setWidth 8 &&& 0x03#8).toNat = v.toNat % 2 ^ 8 % 2 ^ 2 := by
    rw [BitVec.toNat_and, BitVec.toNat_setWidth]
    exact Nat.and_two_pow_sub_one_eq_mod _ 2
  rw [BitVec.and_assoc, BitVec.and_self, hmask]
  omega

/-- A register the host has written reads the value cut to its width, if it is read/write (R17, R18, R19, R24). -/
theorem State.readReg_writeReg_same (s : State) (reg : Nat) (v : BitVec 32) :
    (s.writeReg reg v).readReg reg =
      if reg = 2 then v.toNat % 4 else if reg = 4 then v.toNat else if reg = 5 then v.toNat % 256
      else if reg = 6 then v.toNat % 4 else s.readReg reg := by
  unfold State.writeReg
  split
  · exact toNat_ctrl_masked v
  · rfl
  · exact BitVec.toNat_setWidth ..
  · exact BitVec.toNat_setWidth ..
  · simp_all

/-- A host write of one register is not seen in another. -/
theorem State.readReg_writeReg_of_ne (s : State) {reg r : Nat} (v : BitVec 32) (h : r ≠ reg) :
    (s.writeReg reg v).readReg r = s.readReg r := by
  unfold State.writeReg
  split
  case h_5 => rfl
  all_goals
    unfold State.readReg
    split <;> simp_all [State.sblen]

/-- A host write of a register reaches the four read/write registers alone. -/
theorem State.writeReg_frame (s : State) (reg : Nat) (v : BitVec 32) :
    s.writeReg reg v = { s with
      ctrl := (s.writeReg reg v).ctrl, plen := (s.writeReg reg v).plen, namelen := (s.writeReg reg v).namelen,
      ftype := (s.writeReg reg v).ftype } := by
  unfold State.writeReg
  split <;> rfl

/-- A host write leaves `CTRL` alone or puts a value without reserved bits there (R24; log 12). -/
theorem State.writeReg_ctrl (s : State) (reg : Nat) (v : BitVec 32) :
    (s.writeReg reg v).ctrl = if reg = 2 then v.setWidth 8 &&& 0x03#8 else s.ctrl := by
  unfold State.writeReg
  split <;> simp_all

/-- No move of the host but a command word reaches `STATUS`, `SEQST` or `BLK`; none sets a reserved bit of `CTRL`. -/
theorem State.hostMove_registers {s t : State} {m : HostMove} (h : s.hostMove m = .next t) :
    t.status = s.status ∧ t.seqst = s.seqst ∧ t.blk = s.blk ∧ (t.ctrl = s.ctrl ∨ ∃ c, t.ctrl = c &&& 0x03#8) := by
  obtain ⟨reg, v, -, rfl⟩ | ⟨i, v, -, rfl⟩ | ⟨i, v, -, -, rfl⟩ | ⟨i, v, -, -, rfl⟩ | ⟨n, rfl⟩ | ⟨c, -, rfl⟩ :=
    State.hostMove_cases h
  · rw [s.writeReg_frame reg v, s.writeReg_ctrl]
    refine ⟨rfl, rfl, rfl, ?_⟩
    split
    · exact .inr ⟨_, rfl⟩
    · exact .inl rfl
  all_goals exact ⟨rfl, rfl, rfl, .inl rfl⟩

end Sys2Proof.Machine
end

section
/-! SUPPORT. Which registers and traces a command that ends can have written, read off `Effect`. The cases of `Effect` that a proof
does not name are record updates that spare the field in question. -/

namespace Sys2Proof.Machine

theorem State.done_congr {s t : State} (h : t.status = s.status) : t.done = s.done := by simp only [State.done, h]

theorem State.busy_congr {s t : State} (h : t.status = s.status) : t.busy = s.busy := by simp only [State.busy, h]

/-- What a command that ends has done to `STATUS`, `SEQST` and `BLK`: cleared them, gone through a whole file, raised an
error, or left all three. -/
inductive ProgressEffect (i : Instr) (s t : State) : Prop where
  | cleared (hi : i = .reset) (ht : t = s.clear)
  | encoded (hi : i = .encode) (ht : t = s.encodeFile)
  | raised (hi : i = .encode ∨ ∃ c q, i = .wrblk 3#2 c q) (e : ErrCause) (ht : t = s.setErr e.code)
  | kept (hstatus : t.status = s.status) (hseqst : t.seqst = s.seqst) (hblk : t.blk = s.blk)

section
variable {i : Instr} {s t : State} (h : Effect i s t)
include h

theorem Effect.progress : ProgressEffect i s t := by
  cases h with
  | reset => exact .cleared rfl rfl
  | encode => exact .encoded rfl rfl
  | encodeEmpty => exact .raised (.inl rfl) .empty rfl
  | encodeLength => exact .raised (.inl rfl) .length rfl
  | wrblkType c q => exact .raised (.inr ⟨c, q, rfl⟩) .illArg rfl
  | bldhdr => exact .kept (s.buildRecord_status _) (s.buildRecord_seqst _) (s.buildRecord_blk _)
  | bldftr => exact .kept (s.buildRecord_status _) (s.buildRecord_seqst _) (s.buildRecord_blk _)
  | _ => exact .kept rfl rfl rfl

theorem Effect.hostFieldsKept : HostFieldsKept s t := by
  cases h with
  | wrblk u c q _ _ hu => exact keptByParts_hostFieldsKept.writeBlock s u c q hu
  | bldhdr => exact keptByParts_hostFieldsKept.buildRecord s _
  | bldftr => exact keptByParts_hostFieldsKept.buildRecord s _
  | encode => exact keptByParts_hostFieldsKept.encodeFile s
  | _ => constructor <;> rfl

theorem Effect.crc_writers :
    (i = .crcinit ∨ (∃ v, i = .crcbyte v) ∨ (∃ u c q, i = .wrblk u c q) ∨ i = .encode) ∨ t.crc = s.crc := by
  cases h with
  | crcinit => exact .inl (.inl rfl)
  | crcbyte v => exact .inl (.inr (.inl ⟨v, rfl⟩))
  | wrblk u c q => exact .inl (.inr (.inr (.inl ⟨u, c, q, rfl⟩)))
  | encode => exact .inl (.inr (.inr (.inr rfl)))
  | bldhdr => exact .inr (s.buildRecord_crc _)
  | bldftr => exact .inr (s.buildRecord_crc _)
  | _ => exact .inr rfl

theorem Effect.progress_writers :
    (i = .reset ∨ i = .encode) ∨ t.seqst = s.seqst ∧ t.blk = s.blk ∧ t.done = s.done ∧ t.busy = s.busy := by
  cases h.progress with
  | cleared hi => exact .inl (.inl hi)
  | encoded hi => exact .inl (.inr hi)
  | raised _ e ht => exact .inr (by simp [ht])
  | kept hstatus hseqst hblk => exact .inr ⟨hseqst, hblk, State.done_congr hstatus, State.busy_congr hstatus⟩

theorem Effect.status_writers : (i = .reset ∨ i = .encode ∨ ∃ c q, i = .wrblk 3#2 c q) ∨ t.status = s.status := by
  cases h.progress with
  | cleared hi => exact .inl (.inl hi)
  | encoded hi => exact .inl (.inr (.inl hi))
  | raised hi => exact .inl (.inr hi)
  | kept hstatus => exact .inr hstatus

theorem Effect.dump_writers : (∃ u c q, i = .wrblk u c q) ∨ i = .encode ∨ t.dt = s.dt := by
  cases h with
  | wrblk u c q => exact .inl ⟨u, c, q, rfl⟩
  | encode => exact .inr (.inl rfl)
  | bldhdr => exact .inr (.inr (s.buildRecord_dt _))
  | bldftr => exact .inr (.inr (s.buildRecord_dt _))
  | _ => exact .inr (.inr rfl)

theorem Effect.clock_readers :
    i = .bldhdr ∨ i = .bldftr ∨ i = .encode ∨ t.clk = s.clk ∧ t.clkReads = s.clkReads := by
  cases h with
  | bldhdr => exact .inl rfl
  | bldftr => exact .inr (.inl rfl)
  | encode => exact .inr (.inr (.inl rfl))
  | _ => exact .inr (.inr (.inr ⟨rfl, rfl⟩))

theorem Effect.trace_writers :
    (i = .reset ∨ i = .encode ∨ (∃ a, i = .norm a) ∨ (∃ u c q, i = .wrblk u c q) ∨ ∃ ds, pulsesOf i = some ds) ∨
      t.sb = s.sb ∧ t.pt = s.pt := by
  cases h with
  | reset => exact .inl (.inl rfl)
  | encode => exact .inl (.inr (.inl rfl))
  | norm a => exact .inl (.inr (.inr (.inl ⟨a, rfl⟩)))
  | wrblk u c q => exact .inl (.inr (.inr (.inr (.inl ⟨u, c, q, rfl⟩))))
  | pulses _ ds _ _ hp => exact .inl (.inr (.inr (.inr (.inr ⟨ds, hp⟩))))
  | bldhdr => exact .inr ⟨s.buildRecord_sb _, s.buildRecord_pt _⟩
  | bldftr => exact .inr ⟨s.buildRecord_sb _, s.buildRecord_pt _⟩
  | _ => exact .inr ⟨rfl, rfl⟩

/-- The generator and the metadata builder reach neither trace: they are none of the writers. -/
theorem Effect.traces_of_crc_or_record
    (hi : i = .crcinit ∨ (∃ v, i = .crcbyte v) ∨ i = .bldhdr ∨ i = .bldftr) : t.sb = s.sb ∧ t.pt = s.pt := by
  refine h.trace_writers.resolve_left ?_
  obtain rfl | ⟨v, rfl⟩ | rfl | rfl := hi <;> simp [pulsesOf]

end

end Sys2Proof.Machine
end

section
/-! SUPPORT. Invariants of a step, and the two that concern the registers. -/

namespace Sys2Proof.Machine

/-- A property that commands, raised errors and the host's other moves keep, and that does not speak of the moves still
to come, is kept by every step that goes on. -/
theorem step_preserves {P : State → Prop}
    (moves : ∀ {s rest}, P s → P (s.withMoves rest))
    (command : ∀ {i s t}, P s → exec i s = .next t → P t)
    (error : ∀ {s} (e : ErrCause), P s → P (s.setErr e.code))
    (hostMove : ∀ {s m t}, P s → s.hostMove m = .next t → P t)
    {s t : State} (hs : P s) (h : step s = .next t) : P t := by
  obtain ⟨w, rest, i, -, -, hi⟩ | ⟨w, rest, e, -, -, rfl⟩ | ⟨-, rfl⟩ | ⟨m, rest, -, -, hm⟩ := step_cases h
  · exact command (moves hs) hi
  · rw [State.raise_eq]
    split
    · exact error _ (moves hs)
    · exact moves hs
  · exact hs
  · exact hostMove (moves hs) hm

/-! ### Legal `STATUS` and `CTRL` -/

@[simp] theorem State.clear_busy (s : State) : s.clear.busy = false := by simp [State.busy]

@[simp] theorem State.clear_done (s : State) : s.clear.done = false := by simp [State.done]

@[simp] theorem State.clear_err (s : State) : s.clear.err = 0#3 := by simp [State.err]

theorem ErrCause.code_le (e : ErrCause) : e.code.toNat ≤ 4 := by
  cases e <;> decide

theorem State.setErr_reserved (s : State) (e : BitVec 3) :
    (s.setErr e).status.extractLsb' 5 3 = s.status.extractLsb' 5 3 := by
  revert e; simp only [State.setErr]; generalize s.status = x; revert x; decide

theorem State.setDone_reserved (s : State) (b : Bool) :
    (s.setDone b).status.extractLsb' 5 3 = s.status.extractLsb' 5 3 := by
  simp only [State.setDone]; generalize s.status = x; revert b x; decide

section
variable {s t : State} (hs : s.StatusOk)
include hs

theorem State.StatusOk.of_status (hstatus : t.status = s.status) (hctrl : t.ctrl.extractLsb' 2 6 = 0#6) :
    t.StatusOk := by
  obtain ⟨hbusy, herr, hreserved, -⟩ := hs
  rw [State.busy, ← hstatus] at hbusy
  rw [State.err, ← hstatus] at herr
  exact ⟨hbusy, herr, hstatus ▸ hreserved, hctrl⟩

theorem State.StatusOk.of_eq (hstatus : t.status = s.status) (hctrl : t.ctrl = s.ctrl) : t.StatusOk := by
  have ⟨_, _, _, hreserved⟩ := hs
  exact hs.of_status hstatus (hctrl ▸ hreserved)

theorem State.StatusOk.setErr (e : ErrCause) : (s.setErr e.code).StatusOk := by
  obtain ⟨hbusy, -, hreserved, hctrl⟩ := hs
  refine ⟨by simpa using hbusy, by simpa using e.code_le, ?_, hctrl⟩
  rw [State.setErr_reserved, hreserved]

theorem State.StatusOk.setDone (b : Bool) : (s.setDone b).StatusOk := by
  obtain ⟨hbusy, herr, hreserved, hctrl⟩ := hs
  refine ⟨by simpa using hbusy, by simpa using herr, ?_, hctrl⟩
  rw [State.setDone_reserved, hreserved]

end

/-- Of the parts of an `ENCODE` only `setDone` writes `STATUS`, and none writes `CTRL`. -/
theorem keptByParts_statusOk : KeptByParts fun s t => s.StatusOk → t.StatusOk where
  refl _ := id
  trans _ _ _ hst htu hs := htu (hst hs)
  emit _ _ hs := hs.of_eq rfl rfl
  goto _ _ hs := hs.of_eq rfl rfl
  setBlk _ _ hs := hs.of_eq rfl rfl
  setDone _ b hs := hs.setDone b
  buildRecord s tag4 hs := hs.of_eq (s.buildRecord_status tag4) (s.buildRecord_ctrl tag4)
  storeFrame _ _ _ _ _ hs := hs.of_eq rfl rfl
  loadChunk s k hs := hs.of_eq (s.loadChunk_status k) (s.loadChunk_ctrl k)

theorem State.StatusOk.exec {i : Instr} {s t : State} (hs : s.StatusOk) (h : exec i s = .next t) : t.StatusOk := by
  have heff := effect_of_exec h
  cases heff.progress with
  | cleared _ ht =>
    obtain ⟨-, -, -, hctrl⟩ := hs
    exact ht ▸ ⟨s.clear_busy, by simp, by simp, hctrl⟩
  | encoded _ ht => exact ht ▸ keptByParts_statusOk.encodeFile s hs
  | raised _ e ht => exact ht ▸ hs.setErr e
  | kept hstatus => exact hs.of_eq hstatus heff.hostFieldsKept.ctrl

theorem State.StatusOk.hostMove {s t : State} {m : HostMove} (hs : s.StatusOk) (h : s.hostMove m = .next t) :
    t.StatusOk := by
  obtain ⟨hstatus, -, -, hctrl | ⟨c, hctrl⟩⟩ := State.hostMove_registers h
  · exact hs.of_eq hstatus hctrl
  · have hmask : ∀ x : BitVec 8, (x &&& 0x03#8).extractLsb' 2 6 = 0#6 := by decide
    exact hs.of_status hstatus (hctrl ▸ hmask c)

/-! ### The sequencer between commands -/

theorem State.SequencerOk.of_eq {s t : State} (hs : s.SequencerOk) (hseqst : t.seqst = s.seqst)
    (hdone : t.done = s.done) (hblk : t.blk = s.blk) : t.SequencerOk := by
  simpa only [State.SequencerOk, hseqst, hdone, hblk] using hs

theorem State.SequencerOk.setErr {s : State} (hs : s.SequencerOk) (e : BitVec 3) : (s.setErr e).SequencerOk :=
  hs.of_eq rfl (s.setErr_done e) rfl

/-- The last arrow of an `ENCODE` goes to `DONE` and sets `STATUS.DONE` (44_sequencer.md R124). -/
theorem State.encodeFile_sequencerOk (s : State) : s.encodeFile.SequencerOk := .inr ⟨rfl, State.setDone_done _ true⟩

theorem State.SequencerOk.exec {i : Instr} {s t : State} (hs : s.SequencerOk) (h : exec i s = .next t) :
    t.SequencerOk := by
  cases (effect_of_exec h).progress with
  | cleared _ ht => exact ht ▸ .inl ⟨rfl, s.clear_done, rfl⟩
  | encoded _ ht => exact ht ▸ s.encodeFile_sequencerOk
  | raised _ e ht => exact ht ▸ hs.setErr e.code
  | kept hstatus hseqst hblk => exact hs.of_eq hseqst (State.done_congr hstatus) hblk

theorem State.SequencerOk.hostMove {s t : State} {m : HostMove} (hs : s.SequencerOk) (h : s.hostMove m = .next t) :
    t.SequencerOk := by
  obtain ⟨hstatus, hseqst, hblk, -⟩ := State.hostMove_registers h
  exact hs.of_eq hseqst (State.done_congr hstatus) hblk

end Sys2Proof.Machine
end

section
/-! SUPPORT. The samples of `CLKIN` that the environment has fixed. -/

namespace Sys2Proof.Machine

theorem State.clockSample_of_cons {s : State} {c : Clock} {cs : List Clock} (h : s.clk = c :: cs) :
    s.clockSample = c := by
  simp [State.clockSample, h]

/-- The fixed samples are taken in their order (log 2). -/
theorem State.clockAt_of_getElem? {s : State} {n : Nat} {c : Clock} (h : s.clk[n]? = some c) : s.clockAt n = c := by
  obtain ⟨hn, rfl⟩ := List.getElem?_eq_some_iff.mp h
  exact State.clockSample_of_cons ((s.repeat_afterClockSample_clk n).trans (List.drop_eq_getElem_cons hn))

end Sys2Proof.Machine
end

section
/-! PROOFS. The obligations on the registers and the clock port (10_state.md). -/

namespace Sys2Proof.Machine

/-- Settles O16: legal `STATUS` and `CTRL` are kept by every command, by every raised error and by the host. -/
theorem statusStaysLegal : Obligations.StatusStaysLegal := fun _ _ =>
  step_preserves (P := State.StatusOk) id State.StatusOk.exec (fun e hs => hs.setErr e) State.StatusOk.hostMove

/-- Settles O17: `RESET` and `ENCODE` leave the sequencer at rest, everything else leaves it where it stood. -/
theorem sequencerRests : Obligations.SequencerRests := fun _ _ =>
  step_preserves (P := State.SequencerOk) id State.SequencerOk.exec (fun e hs => hs.setErr e.code)
    State.SequencerOk.hostMove

/-- Settles O8: the register written reads its new value if it is read/write, every other one reads as before. -/
theorem hostRegisterWrite : Obligations.HostRegisterWrite := by
  intro s rest reg v hreg h
  refine ⟨_, step_of_register_write h hreg, fun r => ?_, (s.withMoves rest).writeReg_frame reg v⟩
  by_cases hr : r = reg
  · subst hr
    simp [State.readReg_writeReg_same]
  · simp [State.readReg_writeReg_of_ne _ v hr, hr]

/-- Settles O22: no case of `Effect` writes a field of the host. -/
theorem commandsKeepHostState : Obligations.CommandsKeepHostState := by
  intro i s t h
  have hk := (effect_of_exec h).hostFieldsKept
  exact ⟨hk.ctrl, hk.plen, hk.namelen, hk.ftype, hk.pm, hk.name, hk.host, hk.lastRead, hk.params⟩

/-- Settles O23: the writers of each register and trace, one by one. -/
theorem registerWriters : Obligations.RegisterWriters := by
  intro i s t h
  have heff := effect_of_exec h
  exact ⟨heff.crc_writers, heff.progress_writers, heff.status_writers, heff.dump_writers, heff.clock_readers,
    heff.traces_of_crc_or_record⟩

/-- Settles O5: the word decodes to the command that runs. -/
theorem stepRunsDecodedCommand : Obligations.StepRunsDecodedCommand := by
  intro s w rest i h hd
  rw [step_of_word h, hd]

/-- Settles O9: a read is a move of the host that writes nothing but `lastRead`. -/
theorem hostRegisterRead : Obligations.HostRegisterRead := by
  intro s rest reg h
  refine ⟨step_of_move h nofun, s.readReg_eq_zero, State.StatusOk.readReg, rfl, rfl, rfl, rfl, rfl, rfl, ?_, ?_⟩
  · intro hidle
    simp [State.readReg, hidle, SeqState.code]
  · intro hdone
    simp [State.readReg, hdone, SeqState.code]

/-- Settles O13: the fields of `State.reset` as they are written. -/
theorem resetValues : Obligations.ResetValues :=
  ⟨rfl, rfl, rfl, rfl, rfl, rfl, rfl, rfl, rfl, rfl, rfl, rfl, rfl, rfl, rfl, rfl⟩

/-- Settles O14: the buffers are empty, `STATUS` and `CTRL` are 0, the sequencer is at `IDLE`. -/
theorem resetIsLegal : Obligations.ResetIsLegal := by
  have hmemory : State.reset.MemoryOk := ⟨.nil, .nil, .nil, .nil, nofun, nofun, nofun⟩
  have hstatus : State.reset.StatusOk := ⟨rfl, by decide, rfl, rfl⟩
  have hsequencer : State.reset.SequencerOk := .inl ⟨rfl, rfl, rfl⟩
  have hcapacity : State.reset.CapacityOk := nofun
  exact ⟨hmemory, hstatus, hsequencer, hcapacity, rfl⟩

/-- Settles O60: the draw stands behind the samples fixed before, at the index that is their number. -/
theorem hostClockDraw : Obligations.HostClockDraw := by
  intro s rest v h
  refine ⟨{ s with host := rest, clk := s.clk ++ [v] }, step_of_move h nofun, rfl, ?_, fun n hn => ?_⟩
  · exact State.clockAt_of_getElem? List.getElem?_concat_length
  · have hold : s.clk[n]? = some s.clk[n] := List.getElem?_eq_getElem hn
    rw [State.clockAt_of_getElem? hold]
    exact State.clockAt_of_getElem? ((List.getElem?_append_left hn).trans hold)

end Sys2Proof.Machine
end

section
/-! SUPPORT. Where a buffer has been written, as a relation between states: what it keeps, and what keeps it. -/

namespace Sys2Proof.Machine

/-- From `m` to `m'` bytes have been written at indices in `P` alone, by writes that keep the canonical form
(20_memory.md R37, R47). -/
structure Memory.ChangedWithin (P : Nat → Prop) (m m' : Memory) : Prop where
  wf : m.wf → m'.wf
  listed : ∀ e ∈ m', P e.1 ∨ e ∈ m
  kept : ∀ a, ¬P a → m'.get? a = m.get? a

namespace Memory.ChangedWithin

variable {P : Nat → Prop} {m m' m'' : Memory}

theorem of_eq (h : m' = m) : m.ChangedWithin P m' := by
  subst h
  exact ⟨id, fun _ => .inr, fun _ _ => rfl⟩

theorem trans (h : m.ChangedWithin P m') (h' : m'.ChangedWithin P m'') : m.ChangedWithin P m'' where
  wf := h'.wf ∘ h.wf
  listed e he := (h'.listed e he).elim .inl (h.listed e)
  kept a ha := (h'.kept a ha).trans (h.kept a ha)

theorem of_run {bs : List Byte} (h : m' = m.writeRun 0 bs) (hP : ∀ a < bs.length, P a) : m.ChangedWithin P m' := by
  subst h
  refine ⟨fun hwf => Memory.wf_writeRun hwf 0 bs, fun e he => ?_, fun a ha => ?_⟩
  · exact (Memory.mem_writeRun he).imp_left fun ⟨_, hlt⟩ => hP e.1 (by omega)
  · rw [Memory.get?_writeRun, if_neg]
    rintro ⟨-, hlt⟩
    exact ha (hP a (by omega))

theorem write (m : Memory) {a : Nat} (ha : P a) (v : Byte) : m.ChangedWithin P (m.write a v) where
  wf h := Memory.wf_write h a v
  listed e he := (Memory.mem_write he).imp_left fun (h : e = (a, v)) => h ▸ ha
  kept x hx := by
    rw [Memory.get?_write, if_neg]
    rintro rfl
    exact hx ha

end Memory.ChangedWithin

/-- From `s` to `t` the four indexed buffers have been written at indices in `P` alone. -/
structure StoresWithin (P : Buffer → Nat → Prop) (s t : State) : Prop where
  pm : s.pm.ChangedWithin (P .pm) t.pm
  name : s.name.ChangedWithin (P .name) t.name
  pb : s.pb.ChangedWithin (P .pb) t.pb
  fb : s.fb.ChangedWithin (P .fb) t.fb

namespace StoresWithin

variable {P : Buffer → Nat → Prop} {s t u : State}

theorem buffer (h : StoresWithin P s t) : ∀ b, (s.buffer b).ChangedWithin (P b) (t.buffer b)
  | .pm => h.pm
  | .name => h.name
  | .pb => h.pb
  | .fb => h.fb

theorem of_eq (hpm : t.pm = s.pm) (hname : t.name = s.name) (hpb : t.pb = s.pb) (hfb : t.fb = s.fb) :
    StoresWithin P s t := ⟨.of_eq hpm, .of_eq hname, .of_eq hpb, .of_eq hfb⟩

theorem trans (h : StoresWithin P s t) (h' : StoresWithin P t u) : StoresWithin P s u :=
  ⟨h.pm.trans h'.pm, h.name.trans h'.name, h.pb.trans h'.pb, h.fb.trans h'.fb⟩

theorem readByte (h : StoresWithin P s t) {b : Buffer} {a : Nat} (ha : ¬P b a) : t.readByte b a = s.readByte b a := by
  rw [State.readByte, State.readByte, Memory.read, Memory.read, (h.buffer b).kept a ha]

/-- A record is eighty bytes of `PB` (43_metadata.md R114). -/
theorem buildRecord (hP : ∀ a < 80, P .pb a) (s : State) (tag4 : List Byte) :
    StoresWithin P s (s.buildRecord tag4) where
  pm := .of_eq (s.buildRecord_pm tag4)
  name := .of_eq (s.buildRecord_name tag4)
  pb := .of_run (s.buildRecord_pb tag4) (by simpa [State.recordNow] using hP)
  fb := .of_eq (s.buildRecord_fb tag4)

/-- A chunk is the whole of `PB` (44_sequencer.md R120). -/
theorem loadChunk (hP : ∀ a < 256, P .pb a) (s : State) (k : Nat) : StoresWithin P s (s.loadChunk k) where
  pm := .of_eq (s.loadChunk_pm k)
  name := .of_eq (s.loadChunk_name k)
  pb := .of_run (s.loadChunk_pb k) (by simpa [State.chunk] using hP)
  fb := .of_eq (s.loadChunk_fb k)

/-- A frame is the payload and six bytes more (42_block_framer.md R103). -/
theorem storeFrame {v : BitVec 2} (hP : ∀ a < payloadLen v + 6, P .fb a) (s : State) (c : BitVec 1) (q : Half16) :
    StoresWithin P s (s.storeFrame v c q) where
  pm := .of_eq rfl
  name := .of_eq rfl
  pb := .of_eq rfl
  fb := by
    have hlen : (s.blockFrame v c q).length = payloadLen v + 6 := by
      simp [State.blockFrame, State.blockBody, State.payload, State.readBytes]
    exact .of_run (s.storeFrame_fb v c q) (hlen ▸ hP)

end StoresWithin

end Sys2Proof.Machine
end

section
/-! SUPPORT. Where commands and the host write the buffers, and that all these indices exist. -/

namespace Sys2Proof.Machine

theorem payloadLen_le (u : BitVec 2) : payloadLen u ≤ 256 := by
  unfold payloadLen
  split <;> decide

/-- Every part of an `ENCODE` writes within `PB` and `FB` (44_sequencer.md R124). -/
theorem keptByParts_storesWithin : KeptByParts (StoresWithin (stores .encode)) where
  refl _ := .of_eq rfl rfl rfl rfl
  trans _ _ _ := .trans
  emit _ _ := .of_eq rfl rfl rfl rfl
  goto _ _ := .of_eq rfl rfl rfl rfl
  setBlk _ _ := .of_eq rfl rfl rfl rfl
  setDone _ _ := .of_eq rfl rfl rfl rfl
  buildRecord s tag4 := .buildRecord (fun _ ha => .inl ⟨rfl, by omega⟩) s tag4
  storeFrame s u c q _ := .storeFrame (fun _ ha => .inr ⟨rfl, by have := payloadLen_le u; omega⟩) s c q
  loadChunk s k := .loadChunk (fun _ ha => .inl ⟨rfl, ha⟩) s k

/-- A command that ends has written the buffers where `stores` lets it, and nowhere else. -/
theorem Effect.storesWithin {i : Instr} {s t : State} (h : Effect i s t) : StoresWithin (stores i) s t := by
  cases h with
  | wrblk u c q _ _ hu =>
    have hframe : StoresWithin (stores (.wrblk u c q)) s (s.storeFrame u c q) :=
      .storeFrame (fun _ ha => ⟨rfl, hu, ha⟩) s c q
    exact hframe.trans (.of_eq rfl rfl rfl rfl)
  | bldhdr => exact .buildRecord (fun _ ha => ⟨rfl, ha⟩) s _
  | bldftr => exact .buildRecord (fun _ ha => ⟨rfl, ha⟩) s _
  | encode => exact keptByParts_storesWithin.encodeFile s
  | _ => exact .of_eq rfl rfl rfl rfl

@[simp] theorem hasIndex_pm (a : Nat) : hasIndex .pm a = true := rfl

@[simp] theorem hasIndex_name (a : Nat) : hasIndex .name a = true ↔ a < 256 := decide_eq_true_iff

@[simp] theorem hasIndex_pb (a : Nat) : hasIndex .pb a = true ↔ a < 256 := decide_eq_true_iff

@[simp] theorem hasIndex_fb (a : Nat) : hasIndex .fb a = true ↔ a < 262 := decide_eq_true_iff

/-- The indices each buffer has (20_memory.md R37; `PM` has every index, log 10). -/
theorem hasIndex_iff (b : Buffer) (a : Nat) :
    hasIndex b a = true ↔ b = .pm ∨ (b = .fb ∧ a < 262) ∨ (b ≠ .fb ∧ a < 256) := by
  cases b <;> simp

/-- Every index a command stores to is within the buffer (R47). -/
theorem hasIndex_of_stores {i : Instr} {b : Buffer} {a : Nat} (h : stores i b a) : hasIndex b a = true := by
  cases i with
  | wrblk u c q =>
    obtain ⟨rfl, -, ha⟩ := h
    exact (hasIndex_fb a).mpr (by have := payloadLen_le u; omega)
  | bldhdr =>
    obtain ⟨rfl, ha⟩ := h
    exact (hasIndex_pb a).mpr (by omega)
  | bldftr =>
    obtain ⟨rfl, ha⟩ := h
    exact (hasIndex_pb a).mpr (by omega)
  | encode =>
    obtain ⟨rfl, ha⟩ | ⟨rfl, ha⟩ := h
    · exact (hasIndex_pb a).mpr ha
    · exact (hasIndex_fb a).mpr ha
  | _ => exact h.elim

/-- A move of the host that is no command word and goes on has written a buffer, if any, at an index that exists. -/
theorem State.hostMove_storesWithin {s t : State} {m : HostMove} (h : s.hostMove m = .next t) :
    StoresWithin (fun b a => hasIndex b a = true) s t := by
  obtain ⟨reg, v, -, rfl⟩ | ⟨i, v, -, rfl⟩ | ⟨i, v, -, hi, rfl⟩ | ⟨i, v, -, hi, rfl⟩ | ⟨n, rfl⟩ | ⟨c, -, rfl⟩ :=
    State.hostMove_cases h
  · rw [s.writeReg_frame reg v]
    exact .of_eq rfl rfl rfl rfl
  · exact ⟨.write s.pm (hasIndex_pm i) v, .of_eq rfl, .of_eq rfl, .of_eq rfl⟩
  · exact ⟨.of_eq rfl, .write s.name ((hasIndex_name i).mpr hi) v, .of_eq rfl, .of_eq rfl⟩
  · exact ⟨.of_eq rfl, .of_eq rfl, .write s.pb ((hasIndex_pb i).mpr hi) v, .of_eq rfl⟩
  · exact .of_eq rfl rfl rfl rfl
  · exact .of_eq rfl rfl rfl rfl

/-- Writes at indices that exist keep every buffer canonical and within its size. -/
theorem StoresWithin.memoryOk {P : Buffer → Nat → Prop} {s t : State} (h : StoresWithin P s t)
    (hP : ∀ {b a}, P b a → hasIndex b a = true) (hs : s.MemoryOk) : t.MemoryOk := by
  obtain ⟨hpm, hname, hpb, hfb, iname, ipb, ifb⟩ := hs
  refine ⟨h.pm.wf hpm, h.name.wf hname, h.pb.wf hpb, h.fb.wf hfb, fun e he => ?_, fun e he => ?_, fun e he => ?_⟩
  · exact (h.name.listed e he).elim (fun hp => (hasIndex_name e.1).mp (hP hp)) (iname e)
  · exact (h.pb.listed e he).elim (fun hp => (hasIndex_pb e.1).mp (hP hp)) (ipb e)
  · exact (h.fb.listed e he).elim (fun hp => (hasIndex_fb e.1).mp (hP hp)) (ifb e)

theorem State.MemoryOk.exec {i : Instr} {s t : State} (hs : s.MemoryOk) (h : exec i s = .next t) : t.MemoryOk :=
  (effect_of_exec h).storesWithin.memoryOk hasIndex_of_stores hs

theorem State.MemoryOk.hostMove {s t : State} {m : HostMove} (hs : s.MemoryOk) (h : s.hostMove m = .next t) :
    t.MemoryOk :=
  (State.hostMove_storesWithin h).memoryOk id hs

end Sys2Proof.Machine
end

section
/-! SUPPORT. The host's accesses of single bytes of a buffer: when they stop, and what they do when they go on. -/

namespace Sys2Proof.Machine

theorem Memory.read_write (w : Buffer) (m : Memory) (a : Nat) (v : Byte) (x : Nat) :
    (m.write a v).read w x = if x = a then v else m.read w x := by
  rw [Memory.read, Memory.get?_write]
  split <;> rfl

/-- The buffer a load of the host goes to. -/
def LoadSpace.buffer : LoadSpace → Buffer
  | .pm => .pm
  | .name => .name
  | .pb => .pb

theorem LoadSpace.eq_buffer_iff (space : LoadSpace) (b : Buffer) :
    b = space.buffer ↔ (space = .pm ∧ b = .pm) ∨ (space = .name ∧ b = .name) ∨ (space = .pb ∧ b = .pb) := by
  cases space <;> simp [LoadSpace.buffer]

/-- A load of a byte that exists writes that byte of that buffer (R37). -/
theorem State.hostLoad_next (s : State) {space : LoadSpace} {a : Nat} (h : hasIndex space.buffer a = true) (v : Byte) :
    ∃ t, s.hostLoad space a v = .next t ∧
      (∀ b, t.buffer b = if b = space.buffer then (s.buffer b).write a v else s.buffer b) ∧
      t = { s with pm := t.pm, name := t.name, pb := t.pb } := by
  cases space with
  | pm => exact ⟨_, rfl, fun b => by cases b <;> rfl, rfl⟩
  | name => exact ⟨_, if_pos h, fun b => by cases b <;> rfl, rfl⟩
  | pb => exact ⟨_, if_pos h, fun b => by cases b <;> rfl, rfl⟩

theorem State.hostLoad_stops (s : State) {space : LoadSpace} {a : Nat} (h : ¬hasIndex space.buffer a = true)
    (v : Byte) : s.hostLoad space a v = .fault .noSuchIndex := by
  cases space with
  | pm => exact absurd rfl h
  | name => exact if_neg h
  | pb => exact if_neg h

theorem State.hostReadByte_next {s : State} {space : ReadSpace} {a : Nat} {v : Byte} (h : s.hostByte space a = some v) :
    s.hostReadByte space a = .next { s with lastRead := v.toNat } := by
  rw [State.hostReadByte, h]

theorem State.hostReadByte_stops {s : State} {space : ReadSpace} {a : Nat} (h : s.hostByte space a = none) :
    s.hostReadByte space a = .fault .noSuchIndex := by
  rw [State.hostReadByte, h]

end Sys2Proof.Machine
end

section
/-! PROOFS. The obligations on the buffers (20_memory.md). -/

namespace Sys2Proof.Machine

/-- Settles O15: commands and the host write at indices that exist, by writes that keep the canonical form. -/
theorem memoryStaysCanonical : Obligations.MemoryStaysCanonical := fun _ _ =>
  step_preserves (P := State.MemoryOk) id State.MemoryOk.exec (fun _ hs => hs) State.MemoryOk.hostMove

/-- Settles O10: the load writes one byte of one buffer, which is what the reads find. -/
theorem hostBufferLoad : Obligations.HostBufferLoad := by
  intro s rest space a v h hspace
  have hindex : hasIndex space.buffer a = true := by
    cases space with
    | pm => exact hasIndex_pm a
    | name => exact (hasIndex_name a).mpr (by simpa using hspace)
    | pb => exact (hasIndex_pb a).mpr (by simpa using hspace)
  obtain ⟨t, ht, hbuffer, hframe⟩ := (s.withMoves rest).hostLoad_next hindex v
  refine ⟨t, (step_of_move h nofun).trans ht, fun b x => ?_, hframe, (congrArg State.fb hframe :)⟩
  simp only [← space.eq_buffer_iff]
  rw [State.readByte, hbuffer]
  by_cases hb : b = space.buffer
  · simp only [hb, if_true, and_true, Memory.read_write]
    rfl
  · simp only [hb, if_false, and_false]
    rfl

/-- Settles O24: an index outside `stores` is one the command has not written. -/
theorem bufferFrame : Obligations.BufferFrame := by
  intro i s t h b a ha
  exact (effect_of_exec h).storesWithin.readByte ha

/-- Settles O11: the index exists, so the read finds a byte. -/
theorem hostBufferRead : Obligations.HostBufferRead := by
  intro s rest a
  refine ⟨fun b h hindex => ?_, fun ha h => ?_⟩
  · exact (step_of_move h nofun).trans (State.hostReadByte_next (if_pos ((hasIndex_iff b a).mpr hindex)))
  · exact (step_of_move h nofun).trans (State.hostReadByte_next (List.getElem?_eq_getElem ha))

/-- Settles O12: the index does not exist, so the move finds no byte to write or to read. -/
theorem hostIndexStops : Obligations.HostIndexStops := by
  intro s rest a v
  have loads (space : LoadSpace) (hindex : ¬hasIndex space.buffer a = true) (h : s.host = .load space a v :: rest) :
      step s = .fault .noSuchIndex :=
    (step_of_move h nofun).trans (State.hostLoad_stops _ hindex v)
  have reads (space : ReadSpace) (hbyte : (s.withMoves rest).hostByte space a = none)
      (h : s.host = .readByte space a :: rest) : step s = .fault .noSuchIndex :=
    (step_of_move h nofun).trans (State.hostReadByte_stops hbyte)
  have outside {b : Buffer} (hb : b = .name ∨ b = .pb) (ha : 256 ≤ a) : ¬hasIndex b a = true := by
    obtain rfl | rfl := hb <;> simpa using ha
  refine ⟨fun ha => loads .name (outside (.inl rfl) ha), fun ha => loads .pb (outside (.inr rfl) ha),
    fun ha => reads (.buffer .name) (if_neg (outside (.inl rfl) ha)),
    fun ha => reads (.buffer .pb) (if_neg (outside (.inr rfl) ha)),
    fun ha => reads (.buffer .fb) (if_neg ?_), fun ha => reads .sb (List.getElem?_eq_none ha)⟩
  simpa using ha

end Sys2Proof.Machine
end

section
/-! SUPPORT. The table of R56 row by row: the operands of a row's command, and the row of a command. -/

namespace Sys2Proof

/-- A mask of the `n` lowest bits keeps what a field of that width holds. -/
theorem and_lowMask (arg : BitVec 24) (n : Nat) :
    arg &&& BitVec.ofNat 24 (2 ^ n - 1) = (arg.extractLsb' 0 n).setWidth 24 := by
  apply BitVec.eq_of_getLsbD_eq
  intro k hk
  rw [BitVec.getLsbD_and, BitVec.getLsbD_ofNat, Nat.testBit_two_pow_sub_one]
  simp [hk, Bool.and_comm]

/-- A field put at the bottom of `arg` is read back. -/
theorem extractLsb'_setWidth_self {n : Nat} (hn : n ≤ 24) (v : BitVec n) :
    (v.setWidth 24).extractLsb' 0 n = v := by
  rw [BitVec.extractLsb'_setWidth_of_le (by omega), BitVec.extractLsb'_eq_self]

/-- The operand field of `WRBLK`: the sequence number in bits 15:0, the copy index in bit 16, the type in bits 18:17
(R58). -/
theorem getLsbD_operandsOf_wrblk (t : BitVec 2) (c : BitVec 1) (s : Half16) (k : Nat) (hk : k < 24) :
    (operandsOf (.wrblk t c s)).getLsbD k =
      if k < 16 then s.getLsbD k else if k < 17 then c.getLsbD (k - 16) else t.getLsbD (k - 17) := by
  by_cases hs : k < 16
  · simp [operandsOf, hk, hs, show k < 17 by omega]
  · have above : s.getLsbD k = false := BitVec.getLsbD_of_ge s k (Nat.le_of_not_lt hs)
    by_cases hc : k < 17
    · simp [operandsOf, hk, hs, hc, above]
    · simp [operandsOf, hk, hs, hc, above, show 1 ≤ k - 16 by omega]

/-- The three fields of `WRBLK` fill the 19 bits that its row gives to operands. -/
theorem operandsOf_wrblk_fields (arg : BitVec 24) :
    operandsOf (.wrblk (arg.extractLsb' 17 2) (arg.extractLsb' 16 1) (arg.extractLsb' 0 16)) = arg &&& 0x07FFFF#24 := by
  refine Eq.trans ?_ (and_lowMask arg 19).symm
  apply BitVec.eq_of_getLsbD_eq
  intro k hk
  rw [getLsbD_operandsOf_wrblk _ _ _ _ hk]
  by_cases hs : k < 16
  · simp [hk, hs, show k < 19 by omega]
  · by_cases hc : k < 17
    · obtain rfl : k = 16 := by omega
      simp
    · simp [hk, hs, hc, show 17 + (k - 17) = k by omega, show k - 17 < 2 ↔ k < 19 by omega]

/-- Each field of `WRBLK` is read back from where R58 puts it. -/
theorem wrblk_fields_operandsOf (t : BitVec 2) (c : BitVec 1) (s : Half16) :
    (operandsOf (.wrblk t c s)).extractLsb' 17 2 = t ∧ (operandsOf (.wrblk t c s)).extractLsb' 16 1 = c ∧
      (operandsOf (.wrblk t c s)).extractLsb' 0 16 = s := by
  refine ⟨BitVec.eq_of_getLsbD_eq fun k hk => ?_, BitVec.eq_of_getLsbD_eq fun k hk => ?_,
    BitVec.eq_of_getLsbD_eq fun k hk => ?_⟩ <;>
    rw [BitVec.getLsbD_extractLsb', getLsbD_operandsOf_wrblk _ _ _ _ (by omega)]
  · simp [hk, show ¬17 + k < 16 by omega]
  · simp [hk, show 16 + k < 17 by omega]
  · simp [hk]

/-- A row's command has the row's opcode. -/
theorem opcodeOf_command {r : OpcodeRow} (hr : r ∈ opcodeRows) (arg : BitVec 24) :
    opcodeOf (r.command arg) = r.opcode := by
  revert r
  simp [opcodeRows, opcodeOf]

/-- A row's command holds exactly the bits of `arg` that the row gives to operands. -/
theorem operandsOf_command {r : OpcodeRow} (hr : r ∈ opcodeRows) (arg : BitVec 24) :
    operandsOf (r.command arg) = arg &&& r.operandBits := by
  have empty : 0#24 = arg &&& 0x000000#24 := BitVec.and_zero.symm
  have eight := (and_lowMask arg 8).symm
  have sixteen := (and_lowMask arg 16).symm
  have bit : (BitVec.ofBool (arg.getLsbD 0)).setWidth 24 = arg &&& 0x000001#24 := by
    refine Eq.trans ?_ (and_lowMask arg 1).symm
    congr 1
    ext k hk
    obtain rfl : k = 0 := by omega
    simp
  revert r
  simp only [opcodeRows, List.forall_mem_cons]
  exact ⟨empty, empty, eight, sixteen, bit, eight, empty, empty, empty, empty, sixteen, operandsOf_wrblk_fields arg,
    empty, empty, empty, eight, nofun⟩

/-- The row that a command's opcode finds makes that command from its operand field. -/
theorem command_operandsOf (i : Instr) : ∃ r, rowOf (opcodeOf i) = some r ∧ r.command (operandsOf i) = i := by
  cases i with
  | crcbyte v => exact ⟨_, rfl, congrArg Instr.crcbyte (extractLsb'_setWidth_self (by decide) v)⟩
  | pulse d => exact ⟨_, rfl, congrArg Instr.pulse (extractLsb'_setWidth_self (by decide) d)⟩
  | bit b => cases b <;> exact ⟨_, rfl, rfl⟩
  | byte v => exact ⟨_, rfl, congrArg Instr.byte (extractLsb'_setWidth_self (by decide) v)⟩
  | ibgap n => exact ⟨_, rfl, congrArg Instr.ibgap (extractLsb'_setWidth_self (by decide) n)⟩
  | norm a => exact ⟨_, rfl, congrArg Instr.norm (extractLsb'_setWidth_self (by decide) a)⟩
  | wrblk t c s =>
    obtain ⟨ht, hc, hs⟩ := wrblk_fields_operandsOf t c s
    exact ⟨_, rfl, congr (congrArg₂ Instr.wrblk ht hc) hs⟩
  | _ => exact ⟨_, rfl, rfl⟩

/-- No bit of `arg` lies outside a mask exactly if the mask keeps all of `arg`. -/
theorem and_not_eq_zero_iff (arg mask : BitVec 24) : arg &&& ~~~mask = 0#24 ↔ arg &&& mask = arg := by
  have bitwise (k : Nat) (hk : k < 24) :
      (arg &&& ~~~mask).getLsbD k = false ↔ (arg &&& mask).getLsbD k = arg.getLsbD k := by
    rw [BitVec.getLsbD_and, BitVec.getLsbD_and, BitVec.getLsbD_not]
    cases arg.getLsbD k <;> simp [hk]
  constructor
  · intro h
    exact BitVec.eq_of_getLsbD_eq fun k hk => (bitwise k hk).mp (by simp [h])
  · intro h
    exact BitVec.eq_of_getLsbD_eq fun k hk => by simpa using (bitwise k hk).mpr (by rw [h])

/-- `WRBLK` of type 3 is the one command that is not legal, said of the two fields (R59 (c)). -/
theorem Instr.wellFormed_iff (i : Instr) :
    i.WellFormed = true ↔ ¬(opcodeOf i = 0x30#8 ∧ (operandsOf i).extractLsb' 17 2 = 3#2) := by
  cases i with
  | wrblk t c s =>
    rw [(wrblk_fields_operandsOf t c s).1]
    simp [Instr.WellFormed, opcodeOf]
  | _ => simp [Instr.WellFormed, opcodeOf]

/-- The statement's table of opcodes is the decoder's. -/
theorem mem_legalOpcodes_iff (op : BitVec 8) : op ∈ legalOpcodes ↔ ∃ r, rowOf op = some r := by
  rw [← Option.isSome_iff_exists, rowOf, List.find?_isSome, show legalOpcodes = opcodeRows.map (·.opcode) from rfl]
  simp

/-- The statement's operand bits are those of the decoder's rows. -/
theorem operandBits_opcode {r : OpcodeRow} (hr : r ∈ opcodeRows) : operandBits r.opcode = r.operandBits := by
  revert r
  decide

/-- A row's only refusal is `E_ILLARG` (R59 (b), (c)). -/
theorem readRow_ne_illCmd (r : OpcodeRow) (arg : BitVec 24) : readRow r arg ≠ .error .illCmd := by
  unfold readRow
  split <;> nofun

/-- `E_ILLCMD` is the verdict on an opcode that has no row (R59 (a)). -/
theorem decode_illCmd_iff (w : CmdWord) : decode w = .error .illCmd ↔ opField w ∉ legalOpcodes := by
  rw [mem_legalOpcodes_iff]
  unfold decode
  cases rowOf (opField w) with
  | none => simp
  | some r => simp [readRow_ne_illCmd]

/-- The statement's legal arguments of an opcode are those that its row accepts. -/
theorem not_illegalArgument_iff {w : CmdWord} {r : OpcodeRow} (hr : rowOf (opField w) = some r) :
    ¬illegalArgument w ↔
      argField w &&& ~~~r.operandBits = 0#24 ∧ (r.command (argField w)).WellFormed = true := by
  obtain ⟨hmem, hopcode⟩ := rowOf_some hr
  rw [illegalArgument, not_or, not_not, ← hopcode, operandBits_opcode hmem]
  refine and_congr_right fun hreserved => ?_
  rw [Instr.wellFormed_iff, opcodeOf_command hmem, operandsOf_command hmem,
    (and_not_eq_zero_iff _ _).mp hreserved]

/-- A word is a command exactly if its opcode and its argument are legal (R59). -/
theorem exists_decode_ok_iff (w : CmdWord) :
    (∃ i, decode w = .ok i) ↔ opField w ∈ legalOpcodes ∧ ¬illegalArgument w := by
  rw [mem_legalOpcodes_iff]
  constructor
  · rintro ⟨i, h⟩
    obtain ⟨r, hr, hreserved, rfl, hlegal⟩ := decode_ok_iff.mp h
    exact ⟨⟨r, hr⟩, (not_illegalArgument_iff hr).mpr ⟨hreserved, hlegal⟩⟩
  · rintro ⟨⟨r, hr⟩, h⟩
    obtain ⟨hreserved, hlegal⟩ := (not_illegalArgument_iff hr).mp h
    exact ⟨_, decode_ok_iff.mpr ⟨r, hr, hreserved, rfl, hlegal⟩⟩

/-- `E_ILLARG` is the verdict on every word that is neither `E_ILLCMD` nor a command. -/
theorem decode_illArg_iff (w : CmdWord) :
    decode w = .error .illArg ↔ ¬decode w = .error .illCmd ∧ ¬∃ i, decode w = .ok i := by
  rcases decode w with (_ | _) | i <;> simp

end Sys2Proof
end

section
/-! PROOFS. The obligations on the command word (30_encoding.md). -/

namespace Sys2Proof

/-- Settles O2: the row of the command's opcode makes the command again, and so no reserved bit of its operand field is
set. -/
theorem decodeOfEncode : Obligations.DecodeOfEncode := by
  intro i hi
  obtain ⟨r, hr, hcommand⟩ := command_operandsOf i
  have hreserved : operandsOf i &&& r.operandBits = operandsOf i := by
    rw [← operandsOf_command (rowOf_some hr).1, hcommand]
  rw [decode_ok_iff, opField_encode, argField_encode]
  exact ⟨r, hr, (and_not_eq_zero_iff _ _).mpr hreserved, hcommand.symm, hi⟩

/-- Settles O3: the command has the opcode and the whole operand field of the word. -/
theorem encodeOfDecode : Obligations.EncodeOfDecode := by
  intro w i h
  obtain ⟨r, hr, hreserved, rfl, hlegal⟩ := decode_ok_iff.mp h
  obtain ⟨hmem, hopcode⟩ := rowOf_some hr
  refine ⟨?_, hlegal⟩
  rw [encode, opcodeOf_command hmem, hopcode, operandsOf_command hmem, (and_not_eq_zero_iff _ _).mp hreserved]
  exact (eq_of_fields w).symm

/-- Settles O4: `E_ILLARG` is what is left when the opcode has a row and the word is no command. -/
theorem decoderVerdicts : Obligations.DecoderVerdicts := by
  intro w
  refine ⟨decode_illCmd_iff w, ?_, exists_decode_ok_iff w⟩
  rw [decode_illArg_iff, decode_illCmd_iff, exists_decode_ok_iff]
  by_cases hopcode : opField w ∈ legalOpcodes <;> simp [hopcode]

/-- Settles O1: each word is closed, so the decoder runs on it. -/
theorem workedEncodings : Obligations.WorkedEncodings := by
  unfold Obligations.WorkedEncodings
  and_intros <;> rfl

end Sys2Proof
end

section
/-! SUPPORT. The algebra of the checksum: the rounds and the update are linear over GF(2) and lose nothing (40_crc.md R82). -/

namespace Sys2Proof.Machine

/-! ### Functions that are linear over GF(2) -/

/-- `f` is linear over GF(2). -/
def XorLinear {m n : Nat} (f : BitVec m → BitVec n) : Prop := ∀ a b, f (a ^^^ b) = f a ^^^ f b

namespace XorLinear

variable {m n : Nat}

theorem map_zero {f : BitVec m → BitVec n} (hf : XorLinear f) : f 0#m = 0#n := by
  have h := hf 0#m 0#m
  rwa [BitVec.xor_self, BitVec.xor_self] at h

/-- A linear function with a trivial kernel does not merge two values. -/
theorem injective {f : BitVec m → BitVec n} (hf : XorLinear f) (hker : ∀ a, f a = 0#n → a = 0#m) :
    Function.Injective f := by
  intro a b h
  have hdiff : f (a ^^^ b) = 0#n := by rw [hf, h, BitVec.xor_self]
  exact BitVec.xor_eq_zero_iff.mp (hker _ hdiff)

theorem natRepeat {f : BitVec n → BitVec n} (hf : XorLinear f) (k : Nat) : XorLinear (Nat.repeat f k) := by
  intro a b
  induction k with
  | zero => rfl
  | succ k ih => rw [Nat.repeat, ih, hf, Nat.repeat, Nat.repeat]

end XorLinear

theorem xorLinear_shiftLeft (n k : Nat) : XorLinear fun a : BitVec n => a <<< k :=
  fun _ _ => BitVec.shiftLeft_xor_distrib ..

theorem xorLinear_ushiftRight (n k : Nat) : XorLinear fun a : BitVec n => a >>> k :=
  fun _ _ => BitVec.ushiftRight_xor_distrib ..

theorem injective_repeat {α : Type} {f : α → α} (hf : Function.Injective f) (k : Nat) :
    Function.Injective (Nat.repeat f k) := by
  induction k with
  | zero => exact Function.injective_id
  | succ k ih => exact hf.comp ih

/-- A word has finitely many values, so an injective function on words is a bijection. -/
theorem bijective_of_injective_bitVec {n : Nat} {f : BitVec n → BitVec n} (hf : Function.Injective f) :
    Function.Bijective f :=
  have : Finite (BitVec n) := .of_injective BitVec.toFin fun _ _ => BitVec.eq_of_toFin_eq
  Finite.injective_iff_bijective.mp hf

/-! ### One round -/

/-- The shape that both rounds share (R76, R77): the bit `out` that leaves in the shift brings in the polynomial. -/
def shiftReduce (shift : Half16 → Half16) (out : Nat) (poly a : Half16) : Half16 :=
  if a.getLsbD out then shift a ^^^ poly else shift a

theorem roundCcitt_eq : roundCcitt = shiftReduce (· <<< 1) 15 Config.polyCcitt := rfl

theorem roundKermit_eq : roundKermit = shiftReduce (· >>> 1) 0 Config.polyKermit := rfl

theorem xorLinear_shiftReduce {shift : Half16 → Half16} (hshift : XorLinear shift) (out : Nat) (poly : Half16) :
    XorLinear (shiftReduce shift out poly) := by
  intro a b
  simp only [shiftReduce, BitVec.getLsbD_xor, hshift a b]
  have hpair : shift a ^^^ poly ^^^ (shift b ^^^ poly) = shift a ^^^ shift b := by
    calc
      _ = shift a ^^^ shift b ^^^ (poly ^^^ poly) := by ac_rfl
      _ = shift a ^^^ shift b := by rw [BitVec.xor_self, BitVec.xor_zero]
  match a.getLsbD out, b.getLsbD out with
  | false, false => rfl
  | false, true => exact BitVec.xor_assoc ..
  | true, false =>
    change shift a ^^^ shift b ^^^ poly = shift a ^^^ poly ^^^ shift b
    ac_rfl
  | true, true => exact hpair.symm

/-- The shift leaves bit `fill` empty and the polynomial sets it, so it tells whether the bit `out` was set; the shift alone
loses nothing but that bit. -/
theorem injective_shiftReduce {shift : Half16 → Half16} {out : Nat} {poly : Half16} (hshift : XorLinear shift) (fill : Nat)
    (hpoly : poly.getLsbD fill = true) (hfill : ∀ a, (shift a).getLsbD fill = false)
    (hlost : ∀ a, a.getLsbD out = false → shift a = 0#16 → a = 0#16) :
    Function.Injective (shiftReduce shift out poly) := by
  refine (xorLinear_shiftReduce hshift out poly).injective fun a h => ?_
  unfold shiftReduce at h
  split at h
  · have hbit := congrArg (BitVec.getLsbD · fill) h
    simp [hpoly, hfill] at hbit
  · next hout => exact hlost a (by simpa using hout) h

theorem injective_roundCcitt : Function.Injective roundCcitt := by
  refine injective_shiftReduce (xorLinear_shiftLeft 16 1) 0 rfl (by simp) fun a hout h => ?_
  apply BitVec.eq_of_getLsbD_eq
  intro k hk
  by_cases hlast : k = 15
  · simpa [hlast] using hout
  · have hbit := congrArg (BitVec.getLsbD · (k + 1)) h
    simpa [show k + 1 < 16 by omega, hk] using hbit

theorem injective_roundKermit : Function.Injective roundKermit := by
  refine injective_shiftReduce (xorLinear_ushiftRight 16 1) 15 rfl (by simp) fun a hout h => ?_
  apply BitVec.eq_of_getLsbD_eq
  intro k hk
  cases k with
  | zero => simpa using hout
  | succ k => simpa [Nat.add_comm] using congrArg (BitVec.getLsbD · k) h

/-! ### The update by one byte -/

/-- The round of a mode. -/
def crcRound : CrcMode → Half16 → Half16
  | .ccitt => roundCcitt
  | .kermit => roundKermit

/-- Where a mode takes the byte into the accumulator (R78). -/
def crcInput (mode : CrcMode) (v : Byte) : Half16 :=
  match mode with
  | .ccitt => v.setWidth 16 <<< 8
  | .kermit => v.setWidth 16

theorem crcUpdate_eq (mode : CrcMode) (a : Half16) (v : Byte) :
    crcUpdate mode a v = Nat.repeat (crcRound mode) 8 (a ^^^ crcInput mode v) := by
  cases mode <;> rfl

theorem xorLinear_crcRound : ∀ mode, XorLinear (crcRound mode)
  | .ccitt => xorLinear_shiftReduce (xorLinear_shiftLeft 16 1) 15 _
  | .kermit => xorLinear_shiftReduce (xorLinear_ushiftRight 16 1) 0 _

theorem injective_crcRound : ∀ mode, Function.Injective (crcRound mode)
  | .ccitt => injective_roundCcitt
  | .kermit => injective_roundKermit

theorem xorLinear_crcInput (mode : CrcMode) : XorLinear (crcInput mode) := by
  intro v v'
  cases mode with
  | ccitt => simp only [crcInput, BitVec.setWidth_xor, BitVec.shiftLeft_xor_distrib]
  | kermit => exact BitVec.setWidth_xor

/-- The byte is read back from where the mode takes it in. -/
theorem injective_crcInput : ∀ mode, Function.Injective (crcInput mode)
  | .ccitt => Function.LeftInverse.injective (g := fun w => w.extractLsb' 8 8) fun v => by
      ext k hk
      simp [crcInput, hk, show 8 + k < 16 by omega]
  | .kermit => Function.LeftInverse.injective (g := fun w => w.extractLsb' 0 8) fun v => by
      ext k hk
      simp [crcInput, hk, show k < 16 by omega]

theorem crcUpdate_xor (mode : CrcMode) (a a' : Half16) (v v' : Byte) :
    crcUpdate mode (a ^^^ a') (v ^^^ v') = crcUpdate mode a v ^^^ crcUpdate mode a' v' := by
  have hswap : (a ^^^ a') ^^^ (crcInput mode v ^^^ crcInput mode v') =
      (a ^^^ crcInput mode v) ^^^ (a' ^^^ crcInput mode v') := by
    ac_rfl
  rw [crcUpdate_eq, xorLinear_crcInput, hswap, (xorLinear_crcRound mode).natRepeat 8, crcUpdate_eq, crcUpdate_eq]

@[simp] theorem crcUpdate_zero (mode : CrcMode) : crcUpdate mode 0#16 0#8 = 0#16 := by
  rw [crcUpdate_eq, (xorLinear_crcInput mode).map_zero, BitVec.xor_zero, ((xorLinear_crcRound mode).natRepeat 8).map_zero]

/-- Two updates agree only if what enters the rounds agrees. -/
theorem crcUpdate_eq_iff (mode : CrcMode) (a a' : Half16) (v v' : Byte) :
    crcUpdate mode a v = crcUpdate mode a' v' ↔ a ^^^ crcInput mode v = a' ^^^ crcInput mode v' := by
  rw [crcUpdate_eq, crcUpdate_eq, (injective_repeat (injective_crcRound mode) 8).eq_iff]

theorem injective_crcUpdate_acc (mode : CrcMode) (v : Byte) : Function.Injective fun a => crcUpdate mode a v :=
  fun a a' h => (BitVec.xor_left_inj _).mp ((crcUpdate_eq_iff mode a a' v v).mp h)

theorem injective_crcUpdate_byte (mode : CrcMode) (a : Half16) : Function.Injective (crcUpdate mode a) :=
  fun v v' h => injective_crcInput mode ((BitVec.xor_right_inj _).mp ((crcUpdate_eq_iff mode a a v v').mp h))

/-- For a fixed tail two different accumulators never merge (R82 (b)). -/
theorem injective_foldl_crcUpdate (mode : CrcMode) (m : List Byte) :
    Function.Injective fun a => m.foldl (crcUpdate mode) a := by
  induction m with
  | nil => exact Function.injective_id
  | cons v m ih => exact ih.comp (injective_crcUpdate_acc mode v)

end Sys2Proof.Machine
end

section
/-! SUPPORT. A word whose reserved bits are not all zero is refused. -/

namespace Sys2Proof

/-- A set bit outside the operands of a legal opcode is `E_ILLARG` (30_encoding.md R59 (b)). -/
theorem decode_illArg_of_reserved {w : CmdWord} (hop : opField w ∈ legalOpcodes)
    (harg : argField w &&& ~~~operandBits (opField w) ≠ 0#24) : decode w = .error .illArg := by
  obtain ⟨-, hillegal, -⟩ := decoderVerdicts w
  exact hillegal.mpr ⟨hop, .inl harg⟩

/-- The reserved bits of an operand of one byte are `arg[23:8]`. -/
theorem extractLsb'_eq_zero_of_and_not_byte {arg : BitVec 24} (h : arg &&& ~~~0x0000FF#24 = 0#24) :
    arg.extractLsb' 8 16 = 0#16 := by
  have harg : arg = (arg.extractLsb' 0 8).setWidth 24 := by
    rw [← and_lowMask arg 8]
    exact ((and_not_eq_zero_iff arg 0x0000FF#24).mp h).symm
  rw [harg]
  ext k hk
  simp

end Sys2Proof
end

section
/-! PROOFS. The obligations on the checksum and its commands (40_crc.md). -/

namespace Sys2Proof.Machine

/-- Settles O31: byte by byte from the end of the sequence, for the last `CRCBYTE` runs on the checksum of what came
before. -/
theorem crcCommandsComputeChecksum : Obligations.CrcCommandsComputeChecksum := by
  intro s m h
  induction m using List.reverseRecOn with
  | nil => exact (exec_crcinit s).trans (State.unlessError_run h _)
  | append_singleton m v ih =>
    rw [List.foldl_append, ih, crcOf_append]
    exact (exec_crcbyte v _).trans (State.unlessError_run (s := { s with crc := crcOf s.crcMode m }) h _)

/-- Settles O33: a round loses no bit, and what is injective on 16-bit words is a bijection. -/
theorem crcUpdateIsBijective : Obligations.CrcUpdateIsBijective :=
  ⟨bijective_of_injective_bitVec injective_roundCcitt, bijective_of_injective_bitVec injective_roundKermit,
    fun mode v => bijective_of_injective_bitVec (injective_crcUpdate_acc mode v)⟩

/-- Settles O34: the rounds and the way the byte enters are linear. -/
theorem crcUpdateIsLinear : Obligations.CrcUpdateIsLinear :=
  fun mode a a' v v' => ⟨crcUpdate_xor mode a a' v v', crcUpdate_zero mode⟩

/-- Settles O35: the byte that differs makes the accumulators differ, and the common tail does not merge them. -/
theorem crcDetectsOneByte : Obligations.CrcDetectsOneByte := by
  intro mode m m' x y hxy h
  rw [crcOf_append, crcOf_append] at h
  exact hxy (injective_crcUpdate_byte mode _ (injective_foldl_crcUpdate mode m' h))

/-- Settles O36: a zero byte keeps Kermit's initial value 0 and moves CCITT's, 0xFFFF, to 0xE1F0. -/
theorem crcLeadingZeros : Obligations.CrcLeadingZeros := by
  intro n m
  constructor
  · have hzeros : crcOf .kermit (List.replicate n 0x00#8) = 0#16 := by
      induction n with
      | zero => rfl
      | succ n ih => rwa [crcOf, List.replicate_succ, List.foldl_cons, crcInit, Config.initKermit, crcUpdate_zero]
    rw [crcOf_append, hzeros]
    rfl
  · intro h
    have hinit : crcUpdate .ccitt Config.initCcitt 0x00#8 = Config.initCcitt := injective_foldl_crcUpdate .ccitt m h
    exact absurd hinit (by decide)

/-- Settles O29: `CRCINIT` has no operand, so its row reserves every bit of `arg`. -/
theorem crcInitResult : Obligations.CrcInitResult := by
  refine ⟨fun s h => ?_, fun s h => exec_of_error h nofun, fun w hop harg => ?_⟩
  · have hinit : crcInit s.crcMode = if s.ctrl.getLsbD 0 then 0xFFFF#16 else 0x0000#16 := by
      unfold State.crcMode
      split <;> rfl
    rw [exec_crcinit, State.unlessError_run h, hinit]
  · apply decode_illArg_of_reserved (hop ▸ by decide)
    rw [hop]
    exact fun h => harg (BitVec.and_allOnes.symm.trans h)

/-- Settles O30: `CRCBYTE` has an operand of one byte, so its row reserves `arg[23:8]`. -/
theorem crcByteResult : Obligations.CrcByteResult := by
  refine ⟨fun s v h => ?_, fun s v h => exec_of_error h nofun, fun w hop harg => ?_⟩
  · rw [exec_crcbyte, State.unlessError_run h]
  · apply decode_illArg_of_reserved (hop ▸ by decide)
    rw [hop]
    exact mt extractLsb'_eq_zero_of_and_not_byte harg

/-- Settles O32: the rows are closed, so the checksum runs on each. -/
theorem crcWorkedValues : Obligations.CrcWorkedValues := by
  unfold Obligations.CrcWorkedValues
  decide +kernel

end Sys2Proof.Machine
end

section
/-! SUPPORT. Which commands have run when a step has not just appended pulses. -/

namespace Sys2Proof.Machine

theorem Appends.sb_prefix {s t : State} (h : Appends s t) : s.sb <+: t.sb := by
  obtain ⟨-, ds, hsb, -⟩ := h
  exact ⟨render s.params ds, hsb.symm⟩

theorem Appends.pt_prefix {s t : State} (h : Appends s t) : s.pt <+: t.pt := by
  obtain ⟨-, ds, -, hpt⟩ := h
  exact ⟨ds, hpt.symm⟩

theorem Appends.of_kept {s t : State} (h : t.params = s.params ∧ t.sb = s.sb ∧ t.pt = s.pt) : Appends s t := by
  obtain ⟨hp, hsb, hpt⟩ := h
  exact .of_eq hp hsb hpt

/-- A step that goes on has run `RESET`, or run `NORM`, which keeps the number of samples and the pulse trace, or has
appended pulses, perhaps none. -/
theorem step_reset_or_norm_or_appends {s t : State} (h : step s = .next t) :
    (∃ w rest, s.host = .write 0 w :: rest ∧ decode w = .ok .reset) ∨
    (∃ w rest a, s.host = .write 0 w :: rest ∧ decode w = .ok (.norm a) ∧ t.sb.length = s.sb.length ∧ t.pt = s.pt) ∨
    Appends s t := by
  obtain ⟨w, rest, i, hw, hd, hi⟩ | ⟨w, rest, e, -, -, rfl⟩ | ⟨-, rfl⟩ | ⟨m, rest, -, -, hm⟩ := step_cases h
  · obtain ⟨rfl, -⟩ | ⟨a, rfl, rfl⟩ | ⟨happ, -⟩ := (effect_of_exec hi).traces
    · exact .inl ⟨w, rest, hw, hd⟩
    · exact .inr (.inl ⟨w, rest, a, hw, hd, length_normalizeSamples _ _ _, rfl⟩)
    · exact .inr (.inr happ)
  · exact .inr (.inr (.of_kept ((s.withMoves rest).raise_keeps_traces _)))
  · exact .inr (.inr (.of_eq rfl rfl rfl))
  · exact .inr (.inr (.of_kept (State.hostMove_keeps_traces (s := s.withMoves rest) hm)))

end Sys2Proof.Machine
end

section
/-! SUPPORT. The length of a pulse in figures (41_pulse.md R87, R88), and counts of the pulses of a sequence of bits. -/

namespace Sys2Proof.Machine

/-! ### The two halves of a pulse -/

theorem halfLengths_eq (policy : HalfPolicy) (d : Duration) :
    halfLengths policy d = (d.toNat * 11025 / 1000000 / 2,
      if policy = .floor then d.toNat * 11025 / 1000000 / 2
      else d.toNat * 11025 / 1000000 - d.toNat * 11025 / 1000000 / 2) := by
  cases policy <;> rfl

theorem pulseSamples_eq (p : Params) (d : Duration) :
    pulseSamples p d = riseShape p (d.toNat * 11025 / 1000000 / 2) ++
      fallShape p (if p.halfPolicy = .floor then d.toNat * 11025 / 1000000 / 2
        else d.toNat * 11025 / 1000000 - d.toNat * 11025 / 1000000 / 2) := by
  rw [pulseSamples, halfLengths_eq]

theorem length_pulseSamples_floor {p : Params} (h : p.halfPolicy = .floor) (d : Duration) :
    (pulseSamples p d).length = 2 * (d.toNat * 11025 / 1000000 / 2) := by
  rw [length_pulseSamples, halfLengths_eq, if_pos h, Nat.two_mul]

theorem length_pulseSamples_keepTotal {p : Params} (h : p.halfPolicy = .keepTotal) (d : Duration) :
    (pulseSamples p d).length = d.toNat * 11025 / 1000000 := by
  rw [length_pulseSamples, halfLengths_eq, if_neg (by simp [h])]
  exact Nat.add_sub_cancel' (Nat.div_le_self _ 2)

/-- 182 microseconds are the shortest pulse of two samples, and so of one in each half. -/
theorem pulseSamples_eq_nil {p : Params} (h : p.halfPolicy = .floor) {d : Duration} (hd : d.toNat < 182) :
    pulseSamples p d = [] := by
  apply List.eq_nil_of_length_eq_zero
  rw [length_pulseSamples_floor h]
  omega

theorem Centred.append {l m : List Byte} (hl : Centred l) (hm : Centred m) : Centred (l ++ m) :=
  fun v hv => (List.mem_append.mp hv).elim (hl v) (hm v)

/-! ### Counting pulses -/

theorem injective_bitPulse : Function.Injective bitPulse := by decide

theorem count_long_durations (bs : List Bool) : (durations bs).count 1000#16 = bs.count true :=
  List.count_map_of_injective bs bitPulse injective_bitPulse true

theorem count_short_durations (bs : List Bool) : (durations bs).count 545#16 = bs.count false :=
  List.count_map_of_injective bs bitPulse injective_bitPulse false

theorem length_durations (bs : List Bool) : (durations bs).length = bs.count true + bs.count false := by
  rw [durations, List.length_map, List.count_true_add_count_false]

/-- A long pulse has 10 samples, 11 under `keep_total`, a short one has 6 under both (41_pulse.md R101). -/
theorem length_render_durations (p : Params) (bs : List Bool) :
    (render p (durations bs)).length =
      (if p.halfPolicy = .floor then 10 else 11) * bs.count true + 6 * bs.count false := by
  have hlong : (pulseSamples p 1000#16).length = if p.halfPolicy = .floor then 10 else 11 := by
    rw [length_pulseSamples]
    cases p.halfPolicy <;> rfl
  have hshort : (pulseSamples p 545#16).length = 6 := by
    rw [length_pulseSamples]
    cases p.halfPolicy <;> rfl
  induction bs with
  | nil => rfl
  | cons b bs ih =>
    cases b with
    | true =>
      have hcons : durations (true :: bs) = 1000#16 :: durations bs := rfl
      rw [hcons, render_cons, List.length_append, hlong, ih, List.count_cons_self, List.count_cons_of_ne (by decide)]
      ring
    | false =>
      have hcons : durations (false :: bs) = 545#16 :: durations bs := rfl
      rw [hcons, render_cons, List.length_append, hshort, ih, List.count_cons_self, List.count_cons_of_ne (by decide)]
      ring

@[simp] theorem count_true_ones (n : Nat) : (ones n).count true = n := List.count_replicate_self

@[simp] theorem count_false_ones (n : Nat) : (ones n).count false = 0 := by simp [ones, List.count_replicate]

/-- The stop bit is one more 1 bit (30_encoding.md R65). -/
theorem count_true_frameBits (v : Byte) : (frameBits v).count true = popCount v + 1 := by
  have hbits : frameBits v = (List.range 8).map v.getLsbD ++ [true] := rfl
  rw [hbits, List.count_append, popCount, List.count_singleton_self]

theorem count_false_frameBits (v : Byte) : (frameBits v).count false = 8 - popCount v := by
  have hsum : (frameBits v).count true + (frameBits v).count false = 9 := List.count_true_add_count_false _
  rw [count_true_frameBits] at hsum
  omega

/-- The table of 41_pulse.md R101 counts the bits of the table of 30_encoding.md R66. -/
theorem pulsesOf_of_longShort {i : Instr} {l z : Nat} (h : longShort i = some (l, z)) :
    ∃ bs, pulsesOf i = some (durations bs) ∧ bs.count true = l ∧ bs.count false = z := by
  cases i with
  | bit b =>
    cases b with
    | true => cases h; exact ⟨_, rfl, rfl, rfl⟩
    | false => cases h; exact ⟨_, rfl, rfl, rfl⟩
  | byte v => cases h; exact ⟨_, rfl, count_true_frameBits v, count_false_frameBits v⟩
  | sync => cases h; exact ⟨_, rfl, by decide, by decide⟩
  | pre => cases h; exact ⟨_, rfl, by decide, by decide⟩
  | post => cases h; exact ⟨_, rfl, by decide, by decide⟩
  | fgap => cases h; exact ⟨_, rfl, count_true_ones _, count_false_ones _⟩
  | ibgap n => cases h; exact ⟨_, rfl, count_true_ones _, count_false_ones _⟩
  | _ => cases h

/-- A command of the pulse encoder that ends with no error held has emitted its pulses (41_pulse.md R100). -/
theorem eq_emit_of_exec {i : Instr} {ds : List Duration} {s t : State} (hp : pulsesOf i = some ds) (he : s.err = 0#3)
    (h : exec i s = .next t) : t = s.emit ds := by
  rw [exec_of_pulsesOf hp he] at h
  exact (State.finish_next h).1

end Sys2Proof.Machine
end

section
/-! PROOFS. The obligations on the pulse encoder and on what happens to samples (41_pulse.md). -/

namespace Sys2Proof.Machine

/-- Settles O21: `RESET` is excluded, `NORM` keeps the number of samples and `PT`, everything else appends. -/
theorem onlyNormAndResetTouchSamples : Obligations.OnlyNormAndResetTouchSamples := by
  intro s t h hreset
  obtain ⟨w, rest, hw, hd⟩ | ⟨w, rest, a, hw, hd, hlen, hpt⟩ | happ := step_reset_or_norm_or_appends h
  · exact absurd hd (hreset w rest hw)
  · exact ⟨hlen.ge, hpt ▸ List.prefix_refl _, fun hnorm => absurd hd (hnorm w rest a hw)⟩
  · exact ⟨happ.sb_prefix.length_le, happ.pt_prefix, fun _ => happ.sb_prefix⟩

/-- Settles O38: the command emits its pulses, and since they fit it ends. -/
theorem pulseCommandsResult : Obligations.PulseCommandsResult := by
  intro i ds s hp he hfits
  rw [exec_of_pulsesOf hp he]
  exact State.finish_ok ((s.withinCapacity_emit ds).mpr hfits)

/-- Settles O39: a row of the table counts the bits of its command, and each bit is one pulse. -/
theorem pulseCounts : Obligations.PulseCounts := by
  intro i l z s t hrow he h
  obtain ⟨bs, hp, rfl, rfl⟩ := pulsesOf_of_longShort hrow
  obtain rfl := eq_emit_of_exec hp he h
  refine ⟨durations bs, rfl, length_durations bs, count_long_durations bs, count_short_durations bs, ?_⟩
  rw [State.emit_sb, List.length_append, length_render_durations, Nat.add_assoc]

/-- Settles O37: the halves come from their definition, the lengths from the halves. -/
theorem pulseLength : Obligations.PulseLength := by
  intro p d
  refine ⟨fun h => length_pulseSamples_floor h d, fun h => length_pulseSamples_keepTotal h d,
    fun h hd => pulseSamples_eq_nil h hd, pulseSamples_eq p d, fun hrise hfall => ?_⟩
  have hcentred : Centred (pulseSamples p d) := hrise.append hfall
  exact ⟨hcentred, hcentred⟩

end Sys2Proof.Machine
end

section
/-! SUPPORT. What `WRBLK` does in the terms of the spec's tables: the frame it stores, the bits of a block counted, the
two bytes of a checksum. -/

namespace Sys2Proof.Machine

/-- The types `H`, `D` and `E` with their payload lengths and tags (30_encoding.md R58). -/
theorem blockType_of_row {u : BitVec 2} {n : Nat} {tag : Byte}
    (h : (u = 0#2 ∧ n = 80 ∧ tag = 0x48#8) ∨ (u = 1#2 ∧ n = 256 ∧ tag = 0x44#8) ∨ (u = 2#2 ∧ n = 80 ∧ tag = 0x45#8)) :
    u ≠ 3#2 ∧ n = payloadLen u ∧ tag = blockTag u := by
  obtain ⟨rfl, rfl, rfl⟩ | ⟨rfl, rfl, rfl⟩ | ⟨rfl, rfl, rfl⟩ := h <;> decide

theorem exec_wrblk_of_legal {s : State} (he : s.err = 0#3) {u : BitVec 2} (hu : u ≠ 3#2) (c : BitVec 1) (q : Half16) :
    exec (.wrblk u c q) s = (s.writeBlock u c q).finish := by
  rw [exec_wrblk, State.unlessError_run he, if_neg hu]

/-- A raised error is the only change (60_exceptions.md R149). -/
theorem onlyErr_setErr (s : State) (e : BitVec 3) : OnlyErr s (s.setErr e) e := by
  have hmask : ∀ (x : BitVec 8) (e : BitVec 3), (x &&& 0xE3#8 ||| e.setWidth 8 <<< 2) &&& 0xE3#8 = x &&& 0xE3#8 := by
    decide
  exact ⟨s.setErr_err e, hmask s.status e, rfl⟩

/-! ### The stored frame -/

@[simp] theorem State.length_blockFrame (s : State) (u : BitVec 2) (c : BitVec 1) (q : Half16) :
    (s.blockFrame u c q).length = payloadLen u + 6 := by
  simp [State.blockFrame, State.blockBody, State.payload, State.readBytes]

/-- After `WRBLK` the frame stands at the start of `FB`, and the bytes behind it are as before (42_block_framer.md R103). -/
theorem State.readByte_writeBlock_fb (s : State) (u : BitVec 2) (c : BitVec 1) (q : Half16) (a : Nat) :
    (s.writeBlock u c q).readByte .fb a =
      if a < payloadLen u + 6 then (s.blockFrame u c q).getD a 0#8 else s.readByte .fb a := by
  have hread := Memory.read_writeRun .fb s.fb 0 (s.blockFrame u c q) a
  simp only [Nat.zero_le, true_and, Nat.zero_add, Nat.sub_zero, s.length_blockFrame] at hread
  exact hread

/-- Reading back `FB` gives the frame. -/
theorem State.map_readByte_writeBlock_fb (s : State) (u : BitVec 2) (c : BitVec 1) (q : Half16) :
    (List.range (payloadLen u + 6)).map ((s.writeBlock u c q).readByte .fb) = s.blockFrame u c q := by
  have hread := Memory.readRun_writeRun .fb s.fb 0 (s.blockFrame u c q)
  simp only [Memory.readRun, Nat.zero_add, s.length_blockFrame] at hread
  exact hread

/-! ### The bits of a block -/

/-- A block without its trailing gap, sync to postamble (42_block_framer.md R106). -/
def blockProper (frame : List Byte) : List Bool :=
  List.replicate 80 false ++ [true] ++ frameBits 0xFF#8 ++ frameBits 0xAA#8 ++ frame.flatMap frameBits ++
    frameBits 0xAA#8 ++ frameBits 0x00#8

theorem onMedium_eq (g : Nat) (frame : List Byte) : onMedium g frame = blockProper frame ++ ones (9 * g) := rfl

/-- The number of 0 bits among the data bits of some bytes. -/
def zeroBits (frame : List Byte) : Nat := (frame.map fun v => 8 - popCount v).sum

theorem count_false_flatMap_frameBits (frame : List Byte) : (frame.flatMap frameBits).count false = zeroBits frame := by
  have hbyte : List.count false ∘ frameBits = fun v => 8 - popCount v := funext count_false_frameBits
  rw [List.count_flatMap, hbyte, zeroBits]

/-- The 0 bits of the frame that `WRBLK` leaves in `FB`. -/
theorem State.sum_zeroBits_writeBlock_fb (s : State) (u : BitVec 2) (c : BitVec 1) (q : Half16) :
    ((List.range (payloadLen u + 6)).map fun a => 8 - popCount ((s.writeBlock u c q).readByte .fb a)).sum =
      zeroBits (s.blockFrame u c q) := by
  rw [← s.map_readByte_writeBlock_fb, zeroBits, List.map_map]
  rfl

/-- The sync field has 80 bits 0, the preamble 4, the postamble 12. -/
theorem count_false_blockProper (frame : List Byte) : (blockProper frame).count false = 96 + zeroBits frame := by
  have hhead : (List.replicate 80 false ++ [true] ++ frameBits 0xFF#8 ++ frameBits 0xAA#8).count false = 84 := by decide
  have htail : (frameBits 0xAA#8).count false + (frameBits 0x00#8).count false = 12 := by decide
  rw [blockProper, List.count_append, List.count_append, List.count_append, hhead, count_false_flatMap_frameBits]
  omega

theorem length_blockProper (frame : List Byte) : (blockProper frame).length = 117 + 9 * frame.length := by
  have h := length_blockBits 0 frame
  rwa [blockBits_eq, onMedium_eq, ones, List.replicate_zero, List.append_nil] at h

/-- Under `floor` a long pulse has 10 samples and a short one 6, so each 0 bit saves 4 (41_pulse.md R101). -/
theorem length_render_durations_floor {p : Params} (h : p.halfPolicy = .floor) (bs : List Bool) :
    (render p (durations bs)).length + 4 * bs.count false = 10 * bs.length := by
  have hbits : bs.count true + bs.count false = bs.length := List.count_true_add_count_false _
  rw [length_render_durations, if_pos h]
  omega

/-- Each bit is one pulse (41_pulse.md R93). -/
theorem length_durations_eq_length (bs : List Bool) : (durations bs).length = bs.length := List.length_map _

@[simp] theorem length_ones (n : Nat) : (ones n).length = n := List.length_replicate

theorem length_render_blockProper {p : Params} (h : p.halfPolicy = .floor) (frame : List Byte) :
    (render p (durations (blockProper frame))).length + 4 * zeroBits frame = 786 + 90 * frame.length := by
  have hcount := length_render_durations_floor h (blockProper frame)
  rw [count_false_blockProper, length_blockProper] at hcount
  omega

theorem length_render_ones {p : Params} (h : p.halfPolicy = .floor) (n : Nat) :
    (render p (durations (ones n))).length = 10 * n := by
  have hcount := length_render_durations_floor h (ones n)
  rwa [count_false_ones, length_ones] at hcount

/-! ### The two copies of a frame -/

theorem length_bodyBytes (tag : Byte) (q : Half16) (c : BitVec 1) (payload : List Byte) :
    (bodyBytes tag q c payload).length = payload.length + 4 := rfl

/-- The copy index is byte 3 of a frame body and no other (30_encoding.md R67). -/
theorem getElem?_bodyBytes_of_ne {a : Nat} (ha : a ≠ 3) (tag : Byte) (q : Half16) (c c' : BitVec 1)
    (payload : List Byte) : (bodyBytes tag q c payload)[a]? = (bodyBytes tag q c' payload)[a]? := by
  have hset : bodyBytes tag q c payload = (bodyBytes tag q c' payload).set 3 (c.setWidth 8) := rfl
  rw [hset, List.getElem?_set_ne ha.symm]

theorem getElem?_frameBytes_of_lt {a : Nat} {payload : List Byte} (ha : a < payload.length + 4) (mode : CrcMode)
    (tag : Byte) (q : Half16) (c : BitVec 1) :
    (frameBytes mode tag q c payload)[a]? = (bodyBytes tag q c payload)[a]? :=
  List.getElem?_append_left ha

theorem drop_frameBytes (mode : CrcMode) (tag : Byte) (q : Half16) (c : BitVec 1) (payload : List Byte) :
    (frameBytes mode tag q c payload).drop (payload.length + 4) =
      [loByte (crcOf mode (bodyBytes tag q c payload)), hiByte (crcOf mode (bodyBytes tag q c payload))] :=
  List.drop_left' (length_bodyBytes tag q c payload)

/-- A word is its two bytes. -/
theorem eq_of_loByte_hiByte {v w : Half16} (hlo : loByte v = loByte w) (hhi : hiByte v = hiByte w) : v = w := by
  have hsplit (x : Half16) : hiByte x ++ loByte x = x := BitVec.extractLsb'_append_extractLsb' (w := 8) (len := 8)
  rw [← hsplit v, ← hsplit w, hlo, hhi]

/-- The copy index reaches the checksum (40_crc.md R82 (d)). -/
theorem crcOf_bodyBytes_ne {c c' : BitVec 1} (h : c.setWidth 8 ≠ c'.setWidth 8) (mode : CrcMode) (tag : Byte) (q : Half16)
    (payload : List Byte) : crcOf mode (bodyBytes tag q c payload) ≠ crcOf mode (bodyBytes tag q c' payload) :=
  crcDetectsOneByte mode [tag, hiByte q, loByte q] payload _ _ h

end Sys2Proof.Machine
end

section
/-! SUPPORT. `Effect` lists no more than what commands do. -/

namespace Sys2Proof.Machine

/-- The converse of `effect_of_exec`: what `Effect` lists is what the commands do. -/
theorem exec_of_effect {i : Instr} {s t : State} (h : Effect i s t) : exec i s = .next t := by
  cases h with
  | reset => exact exec_reset s
  | sticky _ _ he hi => exact exec_of_error he hi
  | crcinit _ he => exact (exec_crcinit s).trans (State.unlessError_run he _)
  | crcbyte v _ he => exact (exec_crcbyte v s).trans (State.unlessError_run he _)
  | pulses _ ds _ he hp hc => exact (exec_of_pulsesOf hp he).trans (State.finish_ok hc)
  | wrblkType c q _ he =>
    rw [exec_wrblk, State.unlessError_run he, if_pos rfl, State.setErr_of_raise he]
    rfl
  | wrblk u c q _ he hu hc => exact (exec_wrblk_of_legal he hu c q).trans (State.finish_ok hc)
  | bldhdr _ he => exact (exec_bldhdr s).trans (State.unlessError_run he _)
  | bldftr _ he => exact (exec_bldftr s).trans (State.unlessError_run he _)
  | encodeEmpty _ he hempty =>
    rw [exec_encode, State.unlessError_run he, if_pos hempty, State.setErr_of_raise he]
    rfl
  | encodeLength _ he hlong =>
    have hplen : s.plen ≠ 0#32 := by
      intro h0
      simp [h0] at hlong
    rw [exec_encode, State.unlessError_run he, if_neg hplen, if_pos (s.tooLong_iff.mpr hlong),
      State.setErr_of_raise he]
    rfl
  | encode _ he hplen hmax hc =>
    have hshort : ¬65535 < s.blockCount + 1 := mt s.tooLong_iff.mp (Nat.not_lt.mpr hmax)
    rw [exec_encode, State.unlessError_run he, if_neg hplen, if_neg hshort]
    exact State.finish_ok hc
  | norm a _ he => exact (exec_norm a s).trans (State.unlessError_run he _)

end Sys2Proof.Machine
end

section
/-! SUPPORT. Two states that differ in the dump alone stay so under every command (42_block_framer.md R105). -/

namespace Sys2Proof.Machine

/-- `u` is `s` but for the dump trace and for `CTRL`, which is `c` and has the `CRCMODE` of `s`. -/
def SameButDump (c : BitVec 8) (s u : State) : Prop :=
  c.getLsbD 0 = s.ctrl.getLsbD 0 ∧ ∃ d, u = { s with ctrl := c, dt := d }

namespace SameButDump

variable {c : BitVec 8} {s u : State} (h : SameButDump c s u)
include h

/-! ### What such states agree in -/

/-- They agree in everything that looks at neither `CTRL` nor `DT`. -/
theorem agree {α : Type} (f : State → α) (hf : ∀ d, f { s with ctrl := c, dt := d } = f s) : f u = f s := by
  obtain ⟨-, d, rfl⟩ := h
  exact hf d

theorem err : u.err = s.err := h.agree State.err fun _ => rfl

theorem crc : u.crc = s.crc := h.agree State.crc fun _ => rfl

theorem plen : u.plen = s.plen := h.agree State.plen fun _ => rfl

theorem pm : u.pm = s.pm := h.agree State.pm fun _ => rfl

theorem pb : u.pb = s.pb := h.agree State.pb fun _ => rfl

theorem params : u.params = s.params := h.agree State.params fun _ => rfl

theorem withinCapacity : u.withinCapacity = s.withinCapacity := h.agree State.withinCapacity fun _ => rfl

theorem blockCount : u.blockCount = s.blockCount := h.agree State.blockCount fun _ => rfl

theorem recordNow (tag4 : List Byte) : u.recordNow tag4 = s.recordNow tag4 :=
  h.agree (State.recordNow · tag4) fun _ => rfl

theorem blockBody (t : BitVec 2) (k : BitVec 1) (q : Half16) : u.blockBody t k q = s.blockBody t k q :=
  h.agree (State.blockBody · t k q) fun _ => rfl

/-- `CRCMODE` is the one bit of `CTRL` that they share. -/
theorem crcMode : u.crcMode = s.crcMode := by
  obtain ⟨hc, d, rfl⟩ := h
  simp only [State.crcMode, hc]

theorem blockFrame (t : BitVec 2) (k : BitVec 1) (q : Half16) : u.blockFrame t k q = s.blockFrame t k q := by
  simp only [State.blockFrame, h.crcMode, h.blockBody]

/-! ### The operations of the commands -/

/-- An operation that neither reads nor writes `CTRL` and `DT` keeps the two states so. -/
theorem map (f : State → State) (hf : ∀ d, f { s with ctrl := c, dt := d } = { f s with ctrl := c, dt := d })
    (hctrl : (f s).ctrl = s.ctrl) : SameButDump c (f s) (f u) := by
  obtain ⟨hc, d, rfl⟩ := h
  exact ⟨hctrl ▸ hc, d, hf d⟩

theorem clear : SameButDump c s.clear u.clear := h.map State.clear (fun _ => rfl) rfl

theorem setErr (e : BitVec 3) : SameButDump c (s.setErr e) (u.setErr e) := h.map (State.setErr · e) (fun _ => rfl) rfl

theorem setDone (b : Bool) : SameButDump c (s.setDone b) (u.setDone b) := h.map (State.setDone · b) (fun _ => rfl) rfl

theorem goto (q : SeqState) : SameButDump c (s.goto q) (u.goto q) := h.map (State.goto · q) (fun _ => rfl) rfl

theorem setBlk (v : Half16) : SameButDump c (s.setBlk v) (u.setBlk v) := h.map (State.setBlk · v) (fun _ => rfl) rfl

theorem emit (ds : List Duration) : SameButDump c (s.emit ds) (u.emit ds) := h.map (State.emit · ds) (fun _ => rfl) rfl

theorem emitBits (bs : List Bool) : SameButDump c (s.emitBits bs) (u.emitBits bs) := h.emit _

theorem setCrc (v : Half16) : SameButDump c { s with crc := v } { u with crc := v } :=
  h.map ({ · with crc := v }) (fun _ => rfl) rfl

theorem setPb (m : Memory) : SameButDump c { s with pb := m } { u with pb := m } :=
  h.map ({ · with pb := m }) (fun _ => rfl) rfl

theorem normalize (a : Nat) :
    SameButDump c { s with sb := normalizeSamples s.params.normRound a s.sb }
      { u with sb := normalizeSamples u.params.normRound a u.sb } :=
  h.map (fun x => { x with sb := normalizeSamples x.params.normRound a x.sb }) (fun _ => rfl) rfl

/-- The environment's draws are the same (43_metadata.md R111; log 2). -/
theorem afterClockSample : SameButDump c s.afterClockSample u.afterClockSample := by
  refine h.map State.afterClockSample (fun d => ?_) s.afterClockSample_ctrl
  simp only [State.afterClockSample]
  cases s.clk <;> rfl

theorem loadChunk (k : Nat) : SameButDump c (s.loadChunk k) (u.loadChunk k) := by
  unfold State.loadChunk
  rw [h.pb, State.chunk_congr h.plen h.pm]
  exact h.setPb _

theorem buildRecord (tag4 : List Byte) : SameButDump c (s.buildRecord tag4) (u.buildRecord tag4) := by
  unfold State.buildRecord
  rw [h.pb, h.recordNow]
  exact h.afterClockSample.setPb _

theorem rebuildRecord (tag4 : List Byte) : SameButDump c (s.rebuildRecord tag4) (u.rebuildRecord tag4) := by
  unfold State.rebuildRecord
  rw [h.params]
  split
  · exact h.buildRecord tag4
  · exact h

/-- Here `CTRL.DBG` is read, and reaches `DT` (R105). -/
theorem storeFrame (t : BitVec 2) (k : BitVec 1) (q : Half16) :
    SameButDump c (s.storeFrame t k q) (u.storeFrame t k q) := by
  unfold State.storeFrame
  rw [h.blockFrame, h.blockBody, h.crcMode]
  obtain ⟨hc, d, rfl⟩ := h
  exact ⟨hc, _, rfl⟩

theorem writeBlock (t : BitVec 2) (k : BitVec 1) (q : Half16) :
    SameButDump c (s.writeBlock t k q) (u.writeBlock t k q) := by
  unfold State.writeBlock
  rw [h.params, h.blockFrame]
  exact (h.storeFrame t k q).emitBits _

/-! ### The parts of an `ENCODE` -/

theorem recordPair (tag4 : List Byte) (t : BitVec 2) (q : Half16) (mid : SeqState) :
    SameButDump c (s.recordPair tag4 t q mid) (u.recordPair tag4 t q mid) :=
  ((((h.buildRecord tag4).writeBlock t 0#1 q).goto mid).rebuildRecord tag4).writeBlock t 1#1 q

theorem encodeStart : SameButDump c s.encodeStart u.encodeStart := by
  unfold State.encodeStart
  rw [h.params]
  exact ((h.setDone false).goto _).setBlk _

theorem encodeHeader : SameButDump c s.encodeHeader u.encodeHeader := by
  rw [State.encodeHeader_eq, State.encodeHeader_eq, h.params]
  exact (((((h.emitBits _).goto _).recordPair _ _ _ _).goto _).emitBits _).goto _

theorem encodeChunk (b k : Nat) : SameButDump c (s.encodeChunk b k) (u.encodeChunk b k) :=
  (((((((h.setBlk _).loadChunk k).writeBlock _ _ _).goto _).writeBlock _ _ _).goto _).emitBits _).goto _

theorem encodeChunks (b n : Nat) : SameButDump c (s.encodeChunks b n) (u.encodeChunks b n) := by
  induction n with
  | zero => exact h
  | succ n ih => exact ih.encodeChunk b _

theorem encodeFooter (b : Nat) : SameButDump c (s.encodeFooter b) (u.encodeFooter b) := by
  rw [State.encodeFooter_eq, State.encodeFooter_eq]
  exact (((((h.setBlk _).recordPair _ _ _ _).goto _).emitBits _).goto _).setDone true

theorem encodeFile : SameButDump c s.encodeFile u.encodeFile := by
  unfold State.encodeFile
  rw [h.blockCount]
  exact (h.encodeStart.encodeHeader.encodeChunks _ _).encodeFooter _

end SameButDump

/-- A command has the same effect on two states that differ in the dump alone. -/
theorem Effect.sameButDump {i : Instr} {c : BitVec 8} {s t u : State} (heff : Effect i s t) (h : SameButDump c s u) :
    ∃ v, Effect i u v ∧ SameButDump c t v := by
  cases heff with
  | reset => exact ⟨_, .reset u, h.clear⟩
  | sticky _ _ he hi => exact ⟨_, .sticky i u (h.err ▸ he) hi, h⟩
  | crcinit _ he => exact ⟨_, .crcinit u (h.err ▸ he), h.crcMode ▸ h.setCrc _⟩
  | crcbyte v _ he =>
    refine ⟨_, .crcbyte v u (h.err ▸ he), ?_⟩
    rw [h.crcMode, h.crc]
    exact h.setCrc _
  | pulses _ ds _ he hp hc => exact ⟨_, .pulses i ds u (h.err ▸ he) hp ((h.emit ds).withinCapacity ▸ hc), h.emit ds⟩
  | wrblkType k q _ he => exact ⟨_, .wrblkType k q u (h.err ▸ he), h.setErr _⟩
  | wrblk t k q _ he ht hc =>
    have hblock := h.writeBlock t k q
    exact ⟨_, .wrblk t k q u (h.err ▸ he) ht (hblock.withinCapacity ▸ hc), hblock⟩
  | bldhdr _ he => exact ⟨_, .bldhdr u (h.err ▸ he), h.buildRecord _⟩
  | bldftr _ he => exact ⟨_, .bldftr u (h.err ▸ he), h.buildRecord _⟩
  | encodeEmpty _ he hempty => exact ⟨_, .encodeEmpty u (h.err ▸ he) (h.plen ▸ hempty), h.setErr _⟩
  | encodeLength _ he hlong => exact ⟨_, .encodeLength u (h.err ▸ he) (h.plen ▸ hlong), h.setErr _⟩
  | encode _ he hplen hmax hc =>
    have hfile := h.encodeFile
    exact ⟨_, .encode u (h.err ▸ he) (h.plen ▸ hplen) (h.plen ▸ hmax) (hfile.withinCapacity ▸ hc), hfile⟩
  | norm a _ he => exact ⟨_, .norm a u (h.err ▸ he), h.normalize a.toNat⟩

end Sys2Proof.Machine
end

section
/-! PROOFS. The obligations on the block framer (42_block_framer.md). -/

namespace Sys2Proof.Machine

/-- Settles O41: the block fits, so `WRBLK` ends as `writeBlock` leaves the state; its bits are those on the medium. -/
theorem writeBlockResult : Obligations.WriteBlockResult := by
  intro u c q s n tag frame hrow hframe he hfits
  obtain ⟨hu, rfl, rfl⟩ := blockType_of_row hrow
  rw [← State.payload_eq, ← State.blockFrame_eq] at hframe
  subst hframe
  have hroom : (s.writeBlock u c q).withinCapacity = true :=
    ((keptByParts_appends.writeBlock s u c q hu).withinCapacity_iff (s.writeBlock_pulses u c q)).mpr hfits
  refine ⟨s.writeBlock u c q, (exec_wrblk_of_legal he hu c q).trans (State.finish_ok hroom), ?_,
    s.readByte_writeBlock_fb u c q, ?_⟩
  · rw [← State.payload_eq]
    rfl
  · rw [← blockBits_eq]
    rfl

/-- Settles O42: the type is checked before anything is written. -/
theorem writeBlockReservedType : Obligations.WriteBlockReservedType :=
  fun c q s he => ⟨s.setErr 4#3, exec_of_effect (.wrblkType c q s he), onlyErr_setErr s 4#3⟩

/-- Settles O43: one pulse for each bit of the block; under `floor` each takes ten samples, four fewer for a 0 bit. -/
theorem writeBlockCounts : Obligations.WriteBlockCounts := by
  intro u c q s t n z hrow he h hz
  obtain ⟨hu, rfl⟩ : u ≠ 3#2 ∧ n = payloadLen u := by
    obtain ⟨rfl, rfl⟩ | ⟨rfl | rfl, rfl⟩ := hrow <;> decide
  rw [exec_wrblk_of_legal he hu] at h
  obtain ⟨rfl, -⟩ := State.finish_next h
  rw [State.sum_zeroBits_writeBlock_fb] at hz
  have hblk : (durations (blockProper (s.blockFrame u c q))).length = 117 + 9 * (payloadLen u + 6) := by
    rw [length_durations_eq_length, length_blockProper, s.length_blockFrame]
  have hgap : (durations (ones (9 * s.params.blockTrailGap))).length = 9 * s.params.blockTrailGap := by
    rw [length_durations_eq_length, length_ones]
  refine ⟨durations (blockProper (s.blockFrame u c q)), durations (ones (9 * s.params.blockTrailGap)), ?_, ?_, by omega,
    hgap, fun h100 => ?_, fun hfloor => ⟨?_, ?_⟩⟩
  · rw [State.writeBlock_pt, map_bitPulse, blockBits_eq, onMedium_eq, durations_append, List.append_assoc]
  · rw [State.writeBlock_sb, map_bitPulse, blockBits_eq, onMedium_eq, durations_append, render_append, List.append_assoc]
  · rw [List.length_append, hblk, hgap, h100]
    obtain ⟨-, hn⟩ | ⟨-, hn⟩ := hrow <;> rw [hn] <;> rfl
  · have hcount := length_render_blockProper hfloor (s.blockFrame u c q)
    rw [s.length_blockFrame] at hcount
    omega
  · rw [length_render_ones hfloor]
    omega

/-- Settles O44: the bodies differ in byte 3 alone, and one byte that differs shows in the checksum. -/
theorem copiesDifferInCopyAndChecksum : Obligations.CopiesDifferInCopyAndChecksum := by
  intro mode tag q payload
  refine ⟨fun a hne ha => ?_, rfl, rfl, fun h => ?_⟩
  · rw [getElem?_frameBytes_of_lt ha, getElem?_frameBytes_of_lt ha, getElem?_bodyBytes_of_ne hne]
  · rw [drop_frameBytes, drop_frameBytes, List.cons.injEq, List.cons.injEq] at h
    obtain ⟨hlo, hhi, -⟩ := h
    exact crcOf_bodyBytes_ne (by decide) mode tag q payload (eq_of_loByte_hiByte hlo hhi)

/-- Settles O45: the two states differ in the dump alone, before the command and after it. -/
theorem debugFlagReachesOnlyDump : Obligations.DebugFlagReachesOnlyDump := by
  intro i s c d t hc h
  have hsame : SameButDump c s { s with ctrl := c, dt := d } := ⟨hc, d, rfl⟩
  obtain ⟨v, hv, -, d', rfl⟩ := (effect_of_exec h).sameButDump hsame
  exact ⟨d', exec_of_effect hv⟩

end Sys2Proof.Machine
end

section
/-! SUPPORT. Where the bytes of a record come from: it is a run of writes over spaces, and where the writes stay apart each
byte is that of the one write that covers it. -/

namespace Sys2Proof.Machine

/-! ### Writes laid over a record one after the other -/

/-- Two stretches of a record, as (offset, length), do not overlap. -/
def Apart (f g : Nat × Nat) : Prop := f.1 + f.2 ≤ g.1 ∨ g.1 + g.2 ≤ f.1

/-- The stretch a write covers. -/
def extent (w : Nat × List Byte) : Nat × Nat := (w.1, w.2.length)

/-- The writes, as (offset, bytes), in their order. -/
def putFields (rec : List Byte) (ws : List (Nat × List Byte)) : List Byte :=
  ws.foldl (fun r w => putBytes r w.1 w.2) rec

theorem putFields_cons (rec : List Byte) (w : Nat × List Byte) (ws : List (Nat × List Byte)) :
    putFields rec (w :: ws) = putFields (putBytes rec w.1 w.2) ws := rfl

/-- A byte that no write covers is kept. -/
theorem getElem?_putFields_of_uncovered {rec : List Byte} {ws : List (Nat × List Byte)} {i : Nat} (hi : i < rec.length)
    (h : ∀ w ∈ ws, i < w.1 ∨ w.1 + w.2.length ≤ i) : (putFields rec ws)[i]? = rec[i]? := by
  induction ws generalizing rec with
  | nil => rfl
  | cons w ws ih =>
    obtain ⟨hw, hws⟩ := List.forall_mem_cons.mp h
    rw [putFields_cons, ih (by simpa using hi) hws, getElem?_putBytes _ _ _ _ hi, if_neg (by omega)]

/-- A write among writes that stay apart stands in the record. -/
theorem getElem?_putFields_of_mem {rec : List Byte} {ws : List (Nat × List Byte)} {w : Nat × List Byte} {j : Nat}
    (hapart : (ws.map extent).Pairwise Apart) (hw : w ∈ ws) (hj : j < w.2.length) (hi : w.1 + j < rec.length) :
    (putFields rec ws)[w.1 + j]? = w.2[j]? := by
  induction ws generalizing rec with
  | nil => exact absurd hw List.not_mem_nil
  | cons v ws ih =>
    obtain ⟨hv, hws⟩ := List.pairwise_cons.mp hapart
    have hi' : w.1 + j < (putBytes rec v.1 v.2).length := by simpa using hi
    rw [putFields_cons]
    obtain rfl | hw := List.mem_cons.mp hw
    · rw [getElem?_putFields_of_uncovered hi', getElem?_putBytes _ _ _ _ hi, if_pos (by omega), Nat.add_sub_cancel_left]
      intro u hu
      have huw : w.1 + w.2.length ≤ u.1 ∨ u.1 + u.2.length ≤ w.1 := hv (extent u) (List.mem_map_of_mem hu)
      omega
    · exact ih hws hw hi'

/-- The same writes over records that agree in a byte leave records that agree in it. -/
theorem getElem?_putFields_congr {rec rec' : List Byte} {i : Nat} (hi : i < rec.length) (hi' : i < rec'.length)
    (h : rec[i]? = rec'[i]?) (ws : List (Nat × List Byte)) : (putFields rec ws)[i]? = (putFields rec' ws)[i]? := by
  induction ws generalizing rec rec' with
  | nil => exact h
  | cons w ws ih =>
    rw [putFields_cons, putFields_cons]
    refine ih (by simpa using hi) (by simpa using hi') ?_
    rw [getElem?_putBytes _ _ _ _ hi, getElem?_putBytes _ _ _ _ hi', h]

/-! ### The writes of a record -/

/-- The writes of `Record(tag4, name, ftype, clk)` after its tag, in their order (43_metadata.md R113). -/
def fieldWrites (p : Params) (name : List Byte) (ft : BitVec 2) (clk : Clock) : List (Nat × List Byte) :=
  [(4, name.take 8), (15, typeFlags p.flagFill ft), (p.offRecType, [0x32#8]), (p.offBlkMode, [0x53#8]),
   (p.offBlkLen, blockLenField), (p.offDate, (List.range 6).map (digitByte clk)),
   (p.offTime, (List.range 6).map fun j => digitByte clk (6 + j)), (p.offVolume, volumeField),
   (p.offSystem, systemField)]

theorem recordOf_eq (p : Params) (tag4 name : List Byte) (ft : BitVec 2) (clk : Clock) :
    recordOf p tag4 name ft clk =
      putFields (List.replicate 80 0x20#8) ((0, tag4) :: fieldWrites p name ft clk) := by
  simp only [recordOf, Config.recLen, putFields, fieldWrites, List.foldl_cons, List.foldl_nil]

@[simp] theorem length_typeFlags (fill : Byte) (ft : BitVec 2) : (typeFlags fill ft).length = 5 := by
  unfold typeFlags
  repeat' split
  all_goals rfl

/-- The last two type-flag bytes are the fill, whatever the file type (30_encoding.md R70, R71). -/
theorem drop_typeFlags (fill : Byte) (ft : BitVec 2) : (typeFlags fill ft).drop 3 = [fill, fill] := by
  unfold typeFlags
  repeat' split
  all_goals rfl

theorem map_extent_fieldWrites (p : Params) (name : List Byte) (ft : BitVec 2) (clk : Clock) :
    (fieldWrites p name ft clk).map extent = (4, min 8 name.length) :: (15, 5) :: p.fields := by
  simp [fieldWrites, extent, Params.fields, blockLenField, volumeField, systemField]

/-- The digit `j` of a clock sample as a number (R112). -/
theorem digitByte_eq (clk : Clock) (j : Nat) :
    digitByte clk j = BitVec.ofNat 8 (0x30 + clk.toNat / 2 ^ (44 - 4 * j) % 16) := by
  apply BitVec.eq_of_toNat_eq
  simp [digitByte, BitVec.extractLsb'_toNat, Nat.shiftRight_eq_div_pow]

section
variable {p : Params} {tag4 name : List Byte} {ft : BitVec 2} {clk : Clock}

/-- Under R72's constraints the writes of a record stay apart. -/
theorem pairwise_apart_recordWrites (hp : p.OffsetsOk) (htag : tag4.length = 4) :
    (((0, tag4) :: fieldWrites p name ft clk).map extent).Pairwise Apart := by
  obtain ⟨hrange, hapart⟩ := hp
  rw [List.map_cons, map_extent_fieldWrites]
  refine .cons ?_ (.cons ?_ (.cons ?_ hapart)) <;> simp only [List.forall_mem_cons, Apart, extent]
  · exact ⟨by omega, by omega, fun f hf => by have := hrange f hf; omega⟩
  · exact ⟨by omega, fun f hf => by have := hrange f hf; omega⟩
  · exact fun f hf => by have := hrange f hf; omega

/-- Under R72's constraints no write of a record passes its end. -/
theorem fieldWrites_within (hp : p.OffsetsOk) {w : Nat × List Byte} (hw : w ∈ fieldWrites p name ft clk) :
    w.1 + w.2.length ≤ 80 := by
  have hmem : extent w ∈ (fieldWrites p name ft clk).map extent := List.mem_map_of_mem hw
  rw [map_extent_fieldWrites, List.mem_cons, List.mem_cons] at hmem
  obtain h | h | h := hmem
  · obtain ⟨hoff, hlen⟩ : w.1 = 4 ∧ w.2.length = min 8 name.length := Prod.mk.inj h
    omega
  · obtain ⟨hoff, hlen⟩ : w.1 = 15 ∧ w.2.length = 5 := Prod.mk.inj h
    omega
  · have ⟨hrange, _⟩ := hp
    exact (hrange _ h).2

/-- Bytes 0 to 3 are the tag. -/
theorem getElem?_recordOf_tag (hp : p.OffsetsOk) (htag : tag4.length = 4) {a : Nat} (ha : a < 4) :
    (recordOf p tag4 name ft clk)[a]? = tag4[a]? := by
  have h := getElem?_putFields_of_mem (rec := List.replicate 80 0x20#8) (w := (0, tag4)) (j := a)
    (pairwise_apart_recordWrites (name := name) (ft := ft) (clk := clk) hp htag) List.mem_cons_self
    (htag ▸ ha) (by simp only [List.length_replicate]; omega)
  rwa [← recordOf_eq, Nat.zero_add] at h

/-- Every write after the tag stands in the record. -/
theorem getElem?_recordOf_field (hp : p.OffsetsOk) (htag : tag4.length = 4) {off : Nat} {bs : List Byte}
    (hw : (off, bs) ∈ fieldWrites p name ft clk) {j : Nat} (hj : j < bs.length) :
    (recordOf p tag4 name ft clk)[off + j]? = bs[j]? := by
  have hwithin : off + bs.length ≤ 80 := fieldWrites_within hp hw
  rw [recordOf_eq]
  exact getElem?_putFields_of_mem (w := (off, bs)) (pairwise_apart_recordWrites hp htag) (List.mem_cons_of_mem _ hw) hj
    (by simp only [List.length_replicate]; omega)

/-- What no write covers is a space. -/
theorem getElem?_recordOf_space (htag : tag4.length = 4) {i : Nat} (hi : i < 80) (hname : 4 + min 8 name.length ≤ i)
    (hflags : i < 15 ∨ 20 ≤ i) (hfields : ∀ f ∈ p.fields, i < f.1 ∨ f.1 + f.2 ≤ i) :
    (recordOf p tag4 name ft clk)[i]? = some 0x20#8 := by
  have huncovered : ∀ f ∈ ((0, tag4) :: fieldWrites p name ft clk).map extent, i < f.1 ∨ f.1 + f.2 ≤ i := by
    rw [List.map_cons, map_extent_fieldWrites]
    simp only [List.forall_mem_cons, extent]
    exact ⟨by omega, by omega, by omega, hfields⟩
  rw [recordOf_eq, getElem?_putFields_of_uncovered (by simpa using hi) fun w hw =>
    huncovered (extent w) (List.mem_map_of_mem hw), List.getElem?_replicate, if_pos hi]

/-- No parameter field covers a byte before offset 20 (30_encoding.md R72). -/
theorem fields_uncover_of_lt (hp : p.OffsetsOk) {i : Nat} (hi : i < 20) :
    ∀ f ∈ p.fields, i < f.1 ∨ f.1 + f.2 ≤ i := by
  intro f hf
  have ⟨hrange, _⟩ := hp
  exact .inl (by have := hrange f hf; omega)

/-- The name field is the first eight bytes of the name, padded with spaces (R110). -/
theorem getElem?_recordOf_name (hp : p.OffsetsOk) (htag : tag4.length = 4) {a : Nat} (ha : a < 8) :
    (recordOf p tag4 name ft clk)[4 + a]? = some (name.getD a 0x20#8) := by
  by_cases hlt : a < name.length
  · have hbyte : a < (name.take 8).length := by
      rw [List.length_take]
      omega
    rw [getElem?_recordOf_field hp htag List.mem_cons_self hbyte, List.getElem?_take_of_lt ha,
      List.getD_eq_getElem _ _ hlt, List.getElem?_eq_getElem hlt]
  · rw [List.getD_eq_default _ _ (by omega)]
    exact getElem?_recordOf_space htag (by omega) (by omega) (by omega) (fields_uncover_of_lt hp (by omega))

end

/-- From offset 4 on a record does not depend on its tag. -/
theorem getElem?_recordOf_tag_irrelevant {tag4 tag4' : List Byte} (htag : tag4.length = 4) (htag' : tag4'.length = 4)
    (p : Params) (name : List Byte) (ft : BitVec 2) (clk : Clock) {i : Nat} (hlo : 4 ≤ i) (hi : i < 80) :
    (recordOf p tag4 name ft clk)[i]? = (recordOf p tag4' name ft clk)[i]? := by
  have hspaces : i < (List.replicate 80 (0x20#8 : Byte)).length := by simpa using hi
  rw [recordOf_eq, recordOf_eq, putFields_cons, putFields_cons]
  refine getElem?_putFields_congr (by simpa using hi) (by simpa using hi) ?_ _
  rw [getElem?_putBytes _ _ _ _ hspaces, getElem?_putBytes _ _ _ _ hspaces, if_neg (by simp only; omega),
    if_neg (by simp only; omega)]

end Sys2Proof.Machine
end

section
/-! SUPPORT. The record a build leaves in `PB`, and what the build leaves unchanged. -/

namespace Sys2Proof.Machine

theorem State.readBytes_eq (s : State) (b : Buffer) (a n : Nat) :
    s.readBytes b a n = (List.range n).map fun i => s.readByte b (a + i) := rfl

theorem State.readBytes_add (s : State) (b : Buffer) (a m n : Nat) :
    s.readBytes b a (m + n) = s.readBytes b a m ++ s.readBytes b (a + m) n := by
  simp only [State.readBytes_eq, List.range_add, List.map_append, List.map_map, Function.comp_def, Nat.add_assoc]

@[simp] theorem State.length_recordNow (s : State) (tag4 : List Byte) : (s.recordNow tag4).length = 80 :=
  length_recordOf _ _ _ _ _

/-- The record a build gives, in the bytes of the name buffer (43_metadata.md R109, R111). -/
theorem State.recordNow_eq_readByte (s : State) (tag4 : List Byte) :
    s.recordNow tag4 =
      recordOf s.params tag4 ((List.range s.namelen.toNat).map (s.readByte .name)) s.ftype s.clockSample := by
  simp only [State.recordNow, State.readBytes_eq, Nat.zero_add]

/-- The record stands at the start of `PB`, and the bytes behind it are as before (R114). -/
theorem State.readByte_buildRecord_pb (s : State) (tag4 : List Byte) (a : Nat) :
    (s.buildRecord tag4).readByte .pb a =
      if a < 80 then (s.recordNow tag4).getD a 0#8 else s.readByte .pb a := by
  have hread := Memory.read_writeRun .pb s.pb 0 (s.recordNow tag4) a
  simp only [Nat.zero_le, true_and, Nat.zero_add, Nat.sub_zero, s.length_recordNow] at hread
  simpa only [State.readByte, State.buffer, State.buildRecord_pb] using hread

/-- A clock sample is taken from the fixed draws, or counted as a free value (R111; log 2). -/
theorem State.afterClockSample_frame (s : State) :
    s.afterClockSample = { s with clk := s.clk.tail, clkReads := s.afterClockSample.clkReads } := by
  rw [← State.afterClockSample_clk]
  unfold State.afterClockSample
  split <;> rfl

/-- A build writes `PB` and takes a clock sample, nothing else (R114, R115). -/
theorem State.buildRecord_frame (s : State) (tag4 : List Byte) :
    s.buildRecord tag4 =
      { s with pb := (s.buildRecord tag4).pb, clk := s.clk.tail, clkReads := (s.buildRecord tag4).clkReads } := by
  rw [State.buildRecord_pb, State.buildRecord, s.afterClockSample_frame]

/-- A stretch of the record read back from `PB`. -/
theorem State.readBytes_buildRecord_pb {s : State} {tag4 l : List Byte} {a n : Nat} (hlen : l.length = n)
    (hn : a + n ≤ 80) (h : ∀ j < n, (s.recordNow tag4)[a + j]? = l[j]?) :
    (s.buildRecord tag4).readBytes .pb a n = l := by
  subst hlen
  apply List.ext_getElem (by simp [State.readBytes_eq])
  intro j _ hj
  have hbyte : (s.recordNow tag4).getD (a + j) 0#8 = l[j] := by
    rw [List.getD_eq_getElem?_getD, h j hj, List.getElem?_eq_getElem hj, Option.getD_some]
  simp only [State.readBytes_eq, List.getElem_map, List.getElem_range]
  rw [State.readByte_buildRecord_pb, if_pos (by omega), hbyte]

/-- What the two build commands run. -/
theorem exec_build {i : Instr} {tag4 : List Byte}
    (h : (i = .bldhdr ∧ tag4 = headerTag) ∨ (i = .bldftr ∧ tag4 = footerTag))
    {s : State} (he : s.err = 0#3) : exec i s = .next (s.buildRecord tag4) := by
  obtain ⟨rfl, rfl⟩ | ⟨rfl, rfl⟩ := h
  · exact exec_of_effect (.bldhdr s he)
  · exact exec_of_effect (.bldftr s he)

/-! ### The record at the default parameters -/

theorem offsetsOk_default : Params.default.OffsetsOk := by decide

section
variable {s : State} {tag4 : List Byte} (hparams : s.params = Params.default) (htag : tag4.length = 4)
include hparams htag

theorem State.readBytes_default_tag : (s.buildRecord tag4).readBytes .pb 0 4 = tag4 :=
  State.readBytes_buildRecord_pb htag (by decide) fun j hj => by
    rw [State.recordNow, hparams, Nat.zero_add, getElem?_recordOf_tag offsetsOk_default htag hj]

/-- Each write of the record after the tag is read back from `PB`. -/
theorem State.readBytes_default_field {off : Nat} {bs : List Byte}
    (hw : (off, bs) ∈ fieldWrites Params.default (s.readBytes .name 0 s.namelen.toNat) s.ftype s.clockSample) :
    (s.buildRecord tag4).readBytes .pb off bs.length = bs :=
  State.readBytes_buildRecord_pb rfl (fieldWrites_within offsetsOk_default hw) fun j hj => by
    rw [State.recordNow, hparams, getElem?_recordOf_field offsetsOk_default htag hw hj]

/-- The stretches that nothing is written to are spaces: 12 to 14 behind the name, and from 49 to the end. -/
theorem State.readBytes_default_spaces {a n : Nat} (h : 12 ≤ a ∧ a + n ≤ 15 ∨ 49 ≤ a ∧ a + n ≤ 80) :
    (s.buildRecord tag4).readBytes .pb a n = List.replicate n 0x20#8 :=
  State.readBytes_buildRecord_pb List.length_replicate (by omega) fun j hj => by
    rw [State.recordNow, hparams, List.getElem?_replicate, if_pos hj]
    refine getElem?_recordOf_space htag (by omega) (by omega) (by omega) ?_
    simp only [Params.fields, Params.default, List.forall_mem_cons]
    exact ⟨by omega, by omega, by omega, by omega, by omega, by omega, by omega, nofun⟩

end

/-- Built at the same state, the two records differ in the tag only. -/
theorem State.readBytes_buildRecord_agree (s : State) {tag4 tag4' : List Byte} (htag : tag4.length = 4)
    (htag' : tag4'.length = 4) :
    (s.buildRecord tag4).readBytes .pb 4 76 = (s.buildRecord tag4').readBytes .pb 4 76 := by
  rw [State.readBytes_eq, State.readBytes_eq]
  refine List.map_congr_left fun j hj => ?_
  have hlt : 4 + j < 80 := by have := List.mem_range.mp hj; omega
  have hbyte : (s.recordNow tag4)[4 + j]? = (s.recordNow tag4')[4 + j]? :=
    getElem?_recordOf_tag_irrelevant htag htag' s.params _ s.ftype s.clockSample (by omega) hlt
  rw [State.readByte_buildRecord_pb, State.readByte_buildRecord_pb, if_pos hlt, if_pos hlt,
    List.getD_eq_getElem?_getD, List.getD_eq_getElem?_getD, hbyte]

end Sys2Proof.Machine
end

section
/-! PROOFS. The obligations on the metadata builder (43_metadata.md). -/

namespace Sys2Proof.Machine

/-- Settles O46: with no error held a build command runs `buildRecord`; both rows reserve every bit of `arg`. -/
theorem recordBuildResult : Obligations.RecordBuildResult := by
  refine ⟨fun i tag4 s hi => ⟨fun he => ?_, fun he => ?_⟩, fun w hop harg => ?_⟩
  · refine ⟨s.buildRecord tag4, exec_build hi he, fun a => ?_, s.buildRecord_frame tag4⟩
    rw [s.readByte_buildRecord_pb, s.recordNow_eq_readByte]
  · obtain ⟨rfl, -⟩ | ⟨rfl, -⟩ := hi <;> exact exec_of_error he nofun
  · obtain ⟨hlegal, hbits⟩ : opField w ∈ legalOpcodes ∧ operandBits (opField w) = 0x000000#24 := by
      obtain hop | hop := hop <;> rw [hop] <;> decide
    apply decode_illArg_of_reserved hlegal
    rw [hbits]
    exact fun h => harg (BitVec.and_allOnes.symm.trans h)

/-- Settles O47: each field is a write of its own, none reaches into another, and the spaces below show elsewhere. -/
theorem recordLayout : Obligations.RecordLayout := by
  intro p tag4 name ft clk rec hp htag hrec
  rw [hrec]
  have hfield {off : Nat} {bs : List Byte} (hw : (off, bs) ∈ fieldWrites p name ft clk) {j : Nat} (hj : j < bs.length) :
      (recordOf p tag4 name ft clk)[off + j]? = bs[j]? := getElem?_recordOf_field hp htag hw hj
  have hdigits {off : Nat} {dig : Nat → Byte} (hw : (off, (List.range 6).map dig) ∈ fieldWrites p name ft clk) {j : Nat}
      (hj : j < 6) : (recordOf p tag4 name ft clk)[off + j]? = some (dig j) := by
    rw [hfield hw (by simpa using hj), List.getElem?_map, List.getElem?_range hj, Option.map_some]
  refine ⟨length_recordOf _ _ _ _ _, fun a ha => getElem?_recordOf_tag hp htag ha,
    fun a ha => getElem?_recordOf_name hp htag ha, fun a hlo hhi => ?_, fun a ha => ?_, ?_, ?_, fun a ha => ?_,
    fun j hj => ?_, fun j hj => ?_, fun a ha => ?_, fun a ha => ?_, fun a hlo hhi hout => ?_⟩
  · exact getElem?_recordOf_space htag (by omega) (by omega) (by omega) (fields_uncover_of_lt hp (by omega))
  · exact hfield (bs := typeFlags p.flagFill ft) (by simp [fieldWrites]) (by simpa using ha)
  · exact hfield (off := p.offRecType) (bs := [0x32#8]) (j := 0) (by simp [fieldWrites]) (by decide)
  · exact hfield (off := p.offBlkMode) (bs := [0x53#8]) (j := 0) (by simp [fieldWrites]) (by decide)
  · exact hfield (bs := blockLenField) (by simp [fieldWrites]) ha
  · rw [hdigits (dig := digitByte clk) (by simp [fieldWrites]) hj, digitByte_eq]
  · have hbit : 44 - 4 * (6 + j) = 20 - 4 * j := by omega
    rw [hdigits (dig := fun j => digitByte clk (6 + j)) (by simp [fieldWrites]) hj, digitByte_eq, hbit]
  · exact hfield (bs := volumeField) (by simp [fieldWrites]) ha
  · exact hfield (bs := systemField) (by simp [fieldWrites]) ha
  · exact getElem?_recordOf_space htag hhi (by omega) (.inr hlo) hout

/-- Settles O48: each stretch of `PB` is one or two of the record's writes, or the spaces between them. -/
theorem recordFixedFields : Obligations.RecordFixedFields := by
  intro s h f hparams he hh hf
  obtain rfl : s.buildRecord headerTag = h := Host.Outcome.next.inj ((exec_build (.inl ⟨rfl, rfl⟩) he).symm.trans hh)
  obtain rfl : s.buildRecord footerTag = f := Host.Outcome.next.inj ((exec_build (.inr ⟨rfl, rfl⟩) he).symm.trans hf)
  refine ⟨⟨State.readBytes_default_tag hparams rfl, State.readBytes_default_tag hparams rfl⟩, fun t ht => ?_,
    s.readBytes_buildRecord_agree rfl rfl⟩
  obtain ⟨tag4, htag, rfl⟩ : ∃ tag4 : List Byte, tag4.length = 4 ∧ t = s.buildRecord tag4 := by
    obtain rfl | rfl := ht
    · exact ⟨headerTag, rfl, rfl⟩
    · exact ⟨footerTag, rfl, rfl⟩
  have hfield {off : Nat} {bs : List Byte}
      (hw : (off, bs) ∈ fieldWrites Params.default (s.readBytes .name 0 s.namelen.toNat) s.ftype s.clockSample) :
      (s.buildRecord tag4).readBytes .pb off bs.length = bs := State.readBytes_default_field hparams htag hw
  have hflags : (s.buildRecord tag4).readBytes .pb 15 5 = typeFlags 0x20#8 s.ftype := by
    rw [← length_typeFlags 0x20#8 s.ftype]
    exact hfield (by simp [fieldWrites, Params.default])
  have hrecType : (s.buildRecord tag4).readBytes .pb 20 1 = [0x32#8] :=
    hfield (bs := [0x32#8]) (by simp [fieldWrites, Params.default])
  have hblkMode : (s.buildRecord tag4).readBytes .pb 21 1 = [0x53#8] :=
    hfield (bs := [0x53#8]) (by simp [fieldWrites, Params.default])
  refine ⟨State.readBytes_default_spaces hparams htag (by decide), ?_, fun hft => ?_, fun hft => ?_, fun hft => ?_,
    fun hft => ?_, ?_, hfield (bs := blockLenField) (by simp [fieldWrites, Params.default]),
    hfield (bs := volumeField) (by simp [fieldWrites, Params.default]),
    hfield (bs := systemField) (by simp [fieldWrites, Params.default]),
    State.readBytes_default_spaces hparams htag (by decide)⟩
  · have hsplit := (s.buildRecord tag4).readBytes_add .pb 15 3 2
    rw [← drop_typeFlags 0x20#8 s.ftype, ← hflags, hsplit, List.drop_left' (by simp [State.readBytes_eq])]
  · rw [hflags, hft]; rfl
  · rw [hflags, hft]; rfl
  · rw [hflags, hft]; rfl
  · rw [hflags, hft]; rfl
  · have hsplit := (s.buildRecord tag4).readBytes_add .pb 20 1 1
    rw [hrecType, hblkMode] at hsplit
    exact hsplit

end Sys2Proof.Machine
end

section
/-! SUPPORT. An `ENCODE` that ends: when it does, what it has appended to `SB`, and the state in which its footer is
begun. -/

namespace Sys2Proof.Machine

/-- What was appended to `PT` decides what was appended to `SB` (41_pulse.md R100). -/
theorem Appends.samples {s t : State} {ds : List Duration} (h : Appends s t) (hpt : t.pt = s.pt ++ ds) :
    t.sb = s.sb ++ render s.params ds := by
  obtain ⟨-, es, hsb, hpt'⟩ := h
  obtain rfl : ds = es := List.append_cancel_left (hpt.symm.trans hpt')
  exact hsb

theorem encodeFile_samples (s : State) : s.encodeFile.sb = s.sb ++ render s.params (durations (fileOnMedium s)) :=
  (keptByParts_appends.encodeFile s).samples (encodeFile_pulses s)

/-- An accepted `ENCODE` whose file fits ends as the big step says (44_sequencer.md R124). -/
theorem exec_encode_of_fits {s : State} (h : s.EncodeAccepted) (hfits : s.Fits (durations (fileOnMedium s))) :
    exec .encode s = .next s.encodeFile := by
  obtain ⟨he, hplen, hmax⟩ := h
  have hroom := ((keptByParts_appends.encodeFile s).withinCapacity_iff (encodeFile_pulses s)).mpr hfits
  exact exec_of_effect (.encode s he hplen hmax hroom)

theorem exec_encode_of_unbounded {s : State} (h : s.EncodeAccepted) (hcap : s.params.sbCapacity = none) :
    exec .encode s = .next s.encodeFile :=
  exec_encode_of_fits h fun n hn => by simp [hcap] at hn

/-- The block count of a program that is neither empty nor too long (R141, R142). -/
theorem blockCount_bounds {s : State} (hplen : s.plen ≠ 0#32) (hmax : s.plen.toNat ≤ 16776704) :
    1 ≤ s.blockCount ∧ s.blockCount ≤ 65534 := by
  have hpos : s.plen.toNat ≠ 0 := fun h0 => hplen (BitVec.eq_of_toNat_eq h0)
  unfold State.blockCount
  omega

theorem HostFieldsKept.blockCount {s t : State} (h : HostFieldsKept s t) : t.blockCount = s.blockCount := by
  simp only [State.blockCount, h.plen]

/-! ### The state before the footer -/

/-- The state in which the footer of an `ENCODE` is begun. -/
def State.beforeFooter (s : State) : State := s.encodeStart.encodeHeader.encodeChunks s.blockCount s.blockCount

theorem State.encodeFile_eq (s : State) : s.encodeFile = s.beforeFooter.encodeFooter s.blockCount := rfl

theorem hostFieldsKept_header (s : State) : HostFieldsKept s s.encodeStart.encodeHeader :=
  (keptByParts_hostFieldsKept.encodeStart s).trans (keptByParts_hostFieldsKept.encodeHeader s.encodeStart)

theorem hostFieldsKept_beforeFooter (s : State) : HostFieldsKept s s.beforeFooter :=
  (hostFieldsKept_header s).trans (keptByParts_hostFieldsKept.encodeChunks _ s.blockCount s.blockCount)

theorem clockAfter_beforeFooter (s : State) : ClockAfter (recordDraws s) s s.beforeFooter := by
  have hstart : ClockAfter 0 s s.encodeStart := .of_eq rfl rfl
  have h := (hstart.trans (clockAfter_encodeHeader s.encodeStart)).trans
    (clockAfter_encodeChunks _ s.blockCount s.blockCount)
  rwa [Nat.zero_add, Nat.add_zero] at h

/-- Before the footer comes the last chunk. -/
theorem beforeFooter_eq_encodeChunk {s : State} (hpos : 1 ≤ s.blockCount) :
    ∃ t, HostFieldsKept s t ∧ s.beforeFooter = t.encodeChunk s.blockCount s.blockCount := by
  obtain ⟨n, hn⟩ := Nat.exists_eq_add_of_le' hpos
  refine ⟨s.encodeStart.encodeHeader.encodeChunks s.blockCount n,
    (hostFieldsKept_header s).trans (keptByParts_hostFieldsKept.encodeChunks _ _ n), ?_⟩
  rw [State.beforeFooter, hn]
  rfl

end Sys2Proof.Machine
end

section
/-! SUPPORT. The arrows of the sequencer's state machine (44_sequencer.md R118, R119), one by one and then along the
path of an `ENCODE`. -/

namespace Sys2Proof.Machine

theorem repeat_add {α : Type} (f : α → α) (m n : Nat) (a : α) :
    Nat.repeat f (m + n) a = Nat.repeat f m (Nat.repeat f n a) := by
  induction m with
  | zero => rw [Nat.zero_add, Nat.repeat]
  | succ m ih => rw [Nat.succ_add, Nat.repeat, Nat.repeat, ih]

theorem repeat_three {α : Type} (f : α → α) (a : α) : Nat.repeat f 3 a = f (f (f a)) := rfl

theorem State.firstCopy_seqst (s : State) (tag4 : List Byte) (u : BitVec 2) (q : Half16) (mid : SeqState) :
    (s.firstCopy tag4 u q mid).seqst = mid := rfl

/-! ### One arrow -/

section
variable {s : State}

theorem State.seqStep_fgap1 (h : s.seqst = .fgap1) :
    s.seqStep = (s.emitBits (gapBits Config.fileGapBytes)).goto .hdr0 := by simp only [State.seqStep, h]

theorem State.seqStep_hdr0 (h : s.seqst = .hdr0) :
    s.seqStep = s.firstCopy headerTag 0#2 s.params.hdrSeq .hdr1 := by simp only [State.seqStep, h, State.firstCopy]

theorem State.seqStep_hdr1 (h : s.seqst = .hdr1) :
    s.seqStep = ((s.rebuildRecord headerTag).writeBlock 0#2 1#1 s.params.hdrSeq).goto .ibgh := by
  simp only [State.seqStep, h]

theorem State.seqStep_ibgh (h : s.seqst = .ibgh) :
    s.seqStep = ((s.emitBits (gapBits Config.gapAfterHeader)).goto .dat0).setBlk 1#16 := by
  simp only [State.seqStep, h, Config.firstDataSeq]

theorem State.seqStep_dat0 (h : s.seqst = .dat0) :
    s.seqStep = ((s.loadChunk s.blk.toNat).writeBlock 1#2 0#1 s.blk).goto .dat1 := by simp only [State.seqStep, h]

theorem State.seqStep_dat1 (h : s.seqst = .dat1) : s.seqStep = (s.writeBlock 1#2 1#1 s.blk).goto .ibgd := by
  simp only [State.seqStep, h]

theorem State.seqStep_ibgd (h : s.seqst = .ibgd) (hblk : s.blk.toNat ≤ s.blockCount) :
    s.seqStep = ((s.emitBits (gapBits Config.gapAfterData)).goto
      (if s.blk.toNat < s.blockCount then .dat0 else .ftr0)).setBlk (BitVec.ofNat 16 (s.blk.toNat + 1)) := by
  simp only [State.seqStep, h]
  split
  · have hnext : s.blk + 1#16 = BitVec.ofNat 16 (s.blk.toNat + 1) := by
      rw [BitVec.ofNat_add, BitVec.ofNat_toNat, BitVec.setWidth_eq]
    rw [hnext]
  · have hlast : s.blockCount = s.blk.toNat := by omega
    rw [hlast]

theorem State.seqStep_ftr0 (h : s.seqst = .ftr0) :
    s.seqStep = s.firstCopy footerTag 2#2 (BitVec.ofNat 16 (s.blockCount + 1)) .ftr1 := by
  simp only [State.seqStep, h, State.firstCopy]

theorem State.seqStep_ftr1 (h : s.seqst = .ftr1) :
    s.seqStep =
      ((s.rebuildRecord footerTag).writeBlock 2#2 1#1 (BitVec.ofNat 16 (s.blockCount + 1))).goto .fgap2 := by
  simp only [State.seqStep, h]

theorem State.seqStep_fgap2 (h : s.seqst = .fgap2) :
    s.seqStep = ((s.emitBits (gapBits Config.fileGapBytes)).goto .done).setDone true := by simp only [State.seqStep, h]

end

/-! ### The path of an `ENCODE`

Between two parts of the big step the state machine has already written the `BLK` of the next one. -/

/-- `FGAP1` to `DAT0`. -/
theorem State.seqStep_header {s : State} (h : s.seqst = .fgap1) :
    Nat.repeat State.seqStep 4 s = s.encodeHeader.setBlk 1#16 := by
  have hfour : Nat.repeat State.seqStep 4 s = s.seqStep.seqStep.seqStep.seqStep := rfl
  rw [hfour, State.seqStep_fgap1 h, State.seqStep_hdr0 (State.goto_seqst ..),
    State.seqStep_hdr1 (State.firstCopy_seqst ..), State.seqStep_ibgh (State.goto_seqst ..)]
  rfl

/-- Chunk `k` loaded and its two copies sent, the gap still to come. -/
def State.chunkPair (s : State) (k : Nat) : State :=
  (((((s.setBlk (BitVec.ofNat 16 k)).loadChunk k).writeBlock 1#2 0#1 (BitVec.ofNat 16 k)).goto .dat1).writeBlock
    1#2 1#1 (BitVec.ofNat 16 k)).goto .ibgd

theorem State.encodeChunk_eq (s : State) (b k : Nat) :
    s.encodeChunk b k =
      ((s.chunkPair k).emitBits (gapBits Config.gapAfterData)).goto (if k < b then .dat0 else .ftr0) := rfl

theorem State.chunkPair_blk (s : State) (k : Nat) : (s.chunkPair k).blk = BitVec.ofNat 16 k := by
  simp [State.chunkPair]

theorem State.chunkPair_blockCount (s : State) (k : Nat) : (s.chunkPair k).blockCount = s.blockCount := by
  simp [State.chunkPair]

/-- `DAT0` through `DAT1` to `IBGD`. -/
theorem State.seqStep_chunkPair {s : State} {k : Nat} (h : s.seqst = .dat0) (hk : (BitVec.ofNat 16 k).toNat = k) :
    (s.setBlk (BitVec.ofNat 16 k)).seqStep.seqStep = s.chunkPair k := by
  have hdat0 : (s.setBlk (BitVec.ofNat 16 k)).seqst = .dat0 := h
  rw [State.seqStep_dat0 hdat0, State.setBlk_blk, hk, State.seqStep_dat1 (State.goto_seqst ..), State.goto_blk,
    State.writeBlock_blk, State.loadChunk_blk, State.setBlk_blk, State.chunkPair]

/-- `DAT0` through `DAT1` and `IBGD` to the next chunk or to the footer. -/
theorem State.seqStep_chunk {s : State} {k : Nat} (h : s.seqst = .dat0) (hk : k ≤ s.blockCount)
    (hmax : s.blockCount ≤ 65534) :
    Nat.repeat State.seqStep 3 (s.setBlk (BitVec.ofNat 16 k)) =
      (s.encodeChunk s.blockCount k).setBlk (BitVec.ofNat 16 (k + 1)) := by
  have hnat : (BitVec.ofNat 16 k).toNat = k := by
    rw [BitVec.toNat_ofNat]
    omega
  have hblk : (s.chunkPair k).blk.toNat = k := by rw [State.chunkPair_blk, hnat]
  have hcount := s.chunkPair_blockCount k
  rw [repeat_three, State.seqStep_chunkPair h hnat, State.seqStep_ibgd rfl (by omega), hblk, hcount,
    State.encodeChunk_eq]

theorem State.encodeChunk_seqst (s : State) (b k : Nat) :
    (s.encodeChunk b k).seqst = if k < b then .dat0 else .ftr0 := rfl

theorem State.encodeChunks_seqst {s : State} {b n : Nat} (h : s.seqst = .dat0) (hn : n < b) :
    (s.encodeChunks b n).seqst = .dat0 := by
  cases n with
  | zero => exact h
  | succ n =>
    rw [State.encodeChunks, State.encodeChunk_seqst]
    exact if_pos hn

/-- The first `n` chunks. -/
theorem State.seqStep_chunks {s : State} {n : Nat} (h : s.seqst = .dat0) (hn : n ≤ s.blockCount)
    (hmax : s.blockCount ≤ 65534) :
    Nat.repeat State.seqStep (3 * n) (s.setBlk 1#16) =
      (s.encodeChunks s.blockCount n).setBlk (BitVec.ofNat 16 (n + 1)) := by
  induction n with
  | zero => rfl
  | succ n ih =>
    have hcount : (s.encodeChunks s.blockCount n).blockCount = s.blockCount :=
      (keptByParts_hostFieldsKept.encodeChunks s s.blockCount n).blockCount
    have hthree : 3 * (n + 1) = 3 + 3 * n := by omega
    have hchunk := State.seqStep_chunk (State.encodeChunks_seqst h hn) (hcount.symm ▸ hn) (hcount.symm ▸ hmax)
    rw [hcount] at hchunk
    rw [hthree, repeat_add, ih (by omega), hchunk]
    rfl

/-- `FTR0` to `DONE`. -/
theorem State.seqStep_footer {s : State} (h : s.seqst = .ftr0) :
    Nat.repeat State.seqStep 3 (s.setBlk (BitVec.ofNat 16 (s.blockCount + 1))) = s.encodeFooter s.blockCount := by
  have hftr0 : (s.setBlk (BitVec.ofNat 16 (s.blockCount + 1))).seqst = .ftr0 := h
  have hcount (q : Half16) : ((s.setBlk q).firstCopy footerTag 2#2 q .ftr1).blockCount = s.blockCount :=
    (firstCopy_hostFieldsKept _ footerTag _ _ (by decide)).blockCount
  rw [repeat_three, State.seqStep_ftr0 hftr0, State.seqStep_ftr1 (State.firstCopy_seqst ..),
    State.seqStep_fgap2 (State.goto_seqst ..), State.setBlk_blockCount, hcount]
  rfl

end Sys2Proof.Machine
end

section
/-! SUPPORT. The chunks of the program and what loading one leaves in `PB`. -/

namespace Sys2Proof.Machine

theorem State.chunk_eq (s : State) (k : Nat) : s.chunk k = chunkBytes s k := rfl

@[simp] theorem length_chunkBytes (s : State) (k : Nat) : (chunkBytes s k).length = 256 := by simp [chunkBytes]

theorem getElem?_chunkBytes (s : State) (k : Nat) {i : Nat} (hi : i < 256) :
    (chunkBytes s k)[i]? = some (chunkByte s k i) := by
  rw [chunkBytes, List.getElem?_map, List.getElem?_range hi, Option.map_some]

/-- After a load the chunk is the whole of `PB` (44_sequencer.md R120). -/
theorem State.readByte_loadChunk_pb (s : State) (k a : Nat) :
    (s.loadChunk k).readByte .pb a = if a < 256 then chunkByte s k a else s.readByte .pb a := by
  have hread := Memory.read_writeRun .pb s.pb 0 (chunkBytes s k) a
  simp only [Nat.zero_le, true_and, Nat.zero_add, Nat.sub_zero, length_chunkBytes] at hread
  simp only [State.readByte, State.buffer, State.loadChunk_pb, State.chunk_eq, hread]
  split
  · rw [List.getD_eq_getElem?_getD, getElem?_chunkBytes s k ‹_›, Option.getD_some]
  · rfl

/-- Behind every chunk but the last there is more of the program. -/
theorem mul_lt_plen_of_lt_dataBlocks {s : State} {k : Nat} (hk : k < dataBlocks s) : 256 * k < s.plen.toNat := by
  unfold dataBlocks at hk
  omega

theorem HostFieldsKept.chunkByte {s t : State} (h : HostFieldsKept s t) (k i : Nat) :
    chunkByte t k i = chunkByte s k i := by
  simp only [Machine.chunkByte, State.readByte, State.buffer, h.plen, h.pm]

end Sys2Proof.Machine
end

section
/-! SUPPORT. What the two copies of a logical record leave in `PB`, `FB`, `CRC` and the dump trace
(44_sequencer.md R123). -/

namespace Sys2Proof.Machine

/-! ### Bytes of buffers under the operations that write none -/

theorem State.readByte_congr {s t : State} {b : Buffer} (h : t.buffer b = s.buffer b) (a : Nat) :
    t.readByte b a = s.readByte b a := by simp only [State.readByte, h]

@[simp] theorem State.goto_readByte (s : State) (q : SeqState) (b : Buffer) (a : Nat) :
    (s.goto q).readByte b a = s.readByte b a := State.readByte_congr (by cases b <;> rfl) a

@[simp] theorem State.setBlk_readByte (s : State) (v : Half16) (b : Buffer) (a : Nat) :
    (s.setBlk v).readByte b a = s.readByte b a := State.readByte_congr (by cases b <;> rfl) a

@[simp] theorem State.setDone_readByte (s : State) (d : Bool) (b : Buffer) (a : Nat) :
    (s.setDone d).readByte b a = s.readByte b a := State.readByte_congr (by cases b <;> rfl) a

@[simp] theorem State.emitBits_readByte (s : State) (bs : List Bool) (b : Buffer) (a : Nat) :
    (s.emitBits bs).readByte b a = s.readByte b a := State.readByte_congr (by cases b <;> rfl) a

@[simp] theorem State.writeBlock_readByte_pb (s : State) (u : BitVec 2) (c : BitVec 1) (q : Half16) (a : Nat) :
    (s.writeBlock u c q).readByte .pb a = s.readByte .pb a := State.readByte_congr (b := .pb) (s.writeBlock_pb u c q) a

@[simp] theorem State.buildRecord_readByte_fb (s : State) (tag4 : List Byte) (a : Nat) :
    (s.buildRecord tag4).readByte .fb a = s.readByte .fb a := State.readByte_congr (b := .fb) (s.buildRecord_fb tag4) a

@[simp] theorem State.loadChunk_readByte_fb (s : State) (k a : Nat) :
    (s.loadChunk k).readByte .fb a = s.readByte .fb a := State.readByte_congr (b := .fb) (s.loadChunk_fb k) a

/-! ### A block and its dump -/

/-- The records a command dumps: only under `CTRL.DBG` (42_block_framer.md R105). -/
def dumpIfDebug (s : State) (rs : List DumpRecord) : List DumpRecord := if s.dbg then rs else []

theorem dumpIfDebug_append (s : State) (rs rs' : List DumpRecord) :
    dumpIfDebug s (rs ++ rs') = dumpIfDebug s rs ++ dumpIfDebug s rs' := by
  unfold dumpIfDebug
  split <;> rfl

theorem HostFieldsKept.dumpIfDebug {s t : State} (h : HostFieldsKept s t) (rs : List DumpRecord) :
    dumpIfDebug t rs = dumpIfDebug s rs := by
  have hdbg : t.dbg = s.dbg := by simp only [State.dbg, h.ctrl]
  simp only [Machine.dumpIfDebug, hdbg]

theorem State.writeBlock_dump (s : State) (u : BitVec 2) (c : BitVec 1) (q : Half16) :
    (s.writeBlock u c q).dt =
      s.dt ++ dumpIfDebug s [⟨blockTag u, q, c, frameBytes s.crcMode (blockTag u) q c (s.payload u)⟩] := by
  rw [State.writeBlock_dt, State.blockFrame_eq, dumpIfDebug]
  split
  · rfl
  · rw [List.append_nil]

theorem State.writeBlock_checksum (s : State) (u : BitVec 2) (c : BitVec 1) (q : Half16) :
    (s.writeBlock u c q).crc = crcOf s.crcMode (bodyBytes (blockTag u) q c (s.payload u)) := rfl

theorem State.getD_payload (s : State) (u : BitVec 2) {a : Nat} (ha : a < payloadLen u) :
    (s.payload u).getD a 0#8 = s.readByte .pb a := by
  rw [State.payload_eq, List.getD_eq_getElem?_getD, List.getElem?_map, List.getElem?_range ha, Option.map_some,
    Option.getD_some]

/-- Building a record again writes no byte of `PB` behind it, and nothing of `FB`. -/
theorem State.readByte_rebuildRecord (s : State) (tag4 : List Byte) {b : Buffer} {a : Nat}
    (h : b = .fb ∨ b = .pb ∧ 80 ≤ a) : (s.rebuildRecord tag4).readByte b a = s.readByte b a := by
  unfold State.rebuildRecord
  split
  · obtain rfl | ⟨rfl, ha⟩ := h
    · exact s.buildRecord_readByte_fb tag4 a
    · rw [State.readByte_buildRecord_pb, if_neg (by omega)]
  · rfl

@[simp] theorem State.rebuildRecord_dt (s : State) (tag4 : List Byte) : (s.rebuildRecord tag4).dt = s.dt := by
  unfold State.rebuildRecord
  split
  · exact s.buildRecord_dt tag4
  · rfl

@[simp] theorem State.rebuildRecord_blk (s : State) (tag4 : List Byte) : (s.rebuildRecord tag4).blk = s.blk := by
  unfold State.rebuildRecord
  split
  · exact s.buildRecord_blk tag4
  · rfl

section
variable (s : State) (tag4 : List Byte) {u : BitVec 2} (q : Half16) (mid : SeqState)

/-- The payload of copy 0 is the record as it is first built. -/
theorem payload_firstBuild (hlen : payloadLen u = 80) : (s.buildRecord tag4).payload u = recordAt s tag4 0 := by
  rw [State.payload_buildRecord s tag4 hlen]
  exact recordNow_eq (keptByParts_hostFieldsKept.refl s) (.of_eq rfl rfl) tag4

/-- The payload of copy 1: the same record, or the one built again (log 14). -/
theorem payload_secondBuild (hu : u ≠ 3#2) (hlen : payloadLen u = 80) :
    ((s.firstCopy tag4 u q mid).rebuildRecord tag4).payload u = recordAt s tag4 (copyClock s 1) :=
  payload_rebuildRecord (firstCopy_hostFieldsKept s tag4 q mid hu) (clockAfter_firstCopy s tag4 q mid) hlen
    (by rw [State.firstCopy, State.goto_payload, State.writeBlock_payload, payload_firstBuild s tag4 hlen])

theorem secondBuild_hostFieldsKept (hu : u ≠ 3#2) :
    HostFieldsKept s ((s.firstCopy tag4 u q mid).rebuildRecord tag4) :=
  (firstCopy_hostFieldsKept s tag4 q mid hu).trans (keptByParts_hostFieldsKept.rebuildRecord _ tag4)

theorem recordPair_blk : (s.recordPair tag4 u q mid).blk = s.blk := by
  rw [State.recordPair, State.writeBlock_blk, State.rebuildRecord_blk, State.firstCopy, State.goto_blk,
    State.writeBlock_blk, State.buildRecord_blk]

theorem recordPair_crc (hu : u ≠ 3#2) (hlen : payloadLen u = 80) :
    (s.recordPair tag4 u q mid).crc =
      crcOf s.crcMode (bodyBytes (blockTag u) q 1#1 (recordAt s tag4 (copyClock s 1))) := by
  rw [State.recordPair, State.writeBlock_checksum, payload_secondBuild s tag4 q mid hu hlen,
    (secondBuild_hostFieldsKept s tag4 q mid hu).crcMode]

theorem readByte_recordPair_pb (hu : u ≠ 3#2) (hlen : payloadLen u = 80) (a : Nat) :
    (s.recordPair tag4 u q mid).readByte .pb a =
      if a < 80 then (recordAt s tag4 (copyClock s 1)).getD a 0#8 else s.readByte .pb a := by
  rw [State.recordPair, State.writeBlock_readByte_pb]
  split
  · rw [← payload_secondBuild s tag4 q mid hu hlen, State.getD_payload _ _ (by omega)]
  · rw [State.readByte_rebuildRecord _ _ (.inr ⟨rfl, by omega⟩), State.firstCopy, State.goto_readByte,
      State.writeBlock_readByte_pb, State.readByte_buildRecord_pb, if_neg ‹_›]

theorem readByte_recordPair_fb (hu : u ≠ 3#2) (hlen : payloadLen u = 80) (a : Nat) :
    (s.recordPair tag4 u q mid).readByte .fb a =
      if a < 86 then
        (frameBytes s.crcMode (blockTag u) q 1#1 (recordAt s tag4 (copyClock s 1))).getD a 0#8
      else s.readByte .fb a := by
  rw [State.recordPair, State.readByte_writeBlock_fb, State.blockFrame_eq, hlen,
    payload_secondBuild s tag4 q mid hu hlen, (secondBuild_hostFieldsKept s tag4 q mid hu).crcMode]
  split
  · rfl
  · rw [State.readByte_rebuildRecord _ _ (.inl rfl), State.firstCopy, State.goto_readByte, State.readByte_writeBlock_fb,
      hlen, if_neg ‹_›, State.buildRecord_readByte_fb]

theorem recordPair_dump (hu : u ≠ 3#2) (hlen : payloadLen u = 80) :
    (s.recordPair tag4 u q mid).dt =
      s.dt ++ dumpIfDebug s (pairDump s (blockTag u) q fun copy => recordAt s tag4 (copyClock s copy)) := by
  have hk := keptByParts_hostFieldsKept.buildRecord s tag4
  have hk' := secondBuild_hostFieldsKept s tag4 q mid hu
  have hc0 : copyClock s 0 = 0 := by simp [copyClock]
  rw [State.recordPair, State.writeBlock_dump, hk'.dumpIfDebug, hk'.crcMode, payload_secondBuild s tag4 q mid hu hlen,
    State.rebuildRecord_dt, State.firstCopy, State.goto_dt, State.writeBlock_dump, hk.dumpIfDebug, hk.crcMode,
    payload_firstBuild s tag4 hlen, State.buildRecord_dt, List.append_assoc, ← dumpIfDebug_append, pairDump, hc0]
  rfl

end

end Sys2Proof.Machine
end

section
/-! SUPPORT. What a whole `ENCODE` leaves in the buffers, the registers, the dump trace and the clock port
(44_sequencer.md R124). -/

namespace Sys2Proof.Machine

section
variable {s t : State} (hk : HostFieldsKept s t)
include hk

theorem HostFieldsKept.copyClock : copyClock t = copyClock s := by
  funext copy
  simp only [Machine.copyClock, hk.params]

theorem HostFieldsKept.pairDump (tag : Byte) (q : Half16) (payload : Nat → List Byte) :
    pairDump t tag q payload = pairDump s tag q payload := by simp only [Machine.pairDump, hk.crcMode]

/-! ### The header -/

theorem encodeHeader_dump (hc : ClockAfter 0 s t) :
    t.encodeHeader.dt = t.dt ++ dumpIfDebug s (pairDump s 0x48#8 s.params.hdrSeq (headerRecord s)) := by
  have hk' := (hk.trans (keptByParts_hostFieldsKept.emitBits t (gapBits Config.fileGapBytes))).trans
    (keptByParts_hostFieldsKept.goto _ .hdr0)
  have hc' : ClockAfter 0 s ((t.emitBits (gapBits Config.fileGapBytes)).goto .hdr0) := hc.congr rfl rfl
  have hrec : headerRecord s = fun copy => recordAt s headerTag (0 + copyClock s copy) := by
    funext copy
    rw [headerRecord_eq, Nat.zero_add]
  rw [State.encodeHeader_eq, State.goto_dt, State.emitBits_dt, State.goto_dt,
    recordPair_dump _ _ _ _ (by decide) (by decide), State.goto_dt, State.emitBits_dt, hk'.dumpIfDebug, hk'.pairDump,
    hk'.copyClock, hrec, hk.params]
  simp only [recordAt_shift hk' hc', blockTag, if_true]

/-! ### The chunks -/

theorem readByte_encodeChunk_pb (b k a : Nat) :
    (t.encodeChunk b k).readByte .pb a = if a < 256 then chunkByte s k a else t.readByte .pb a := by
  simp only [State.encodeChunk, State.goto_readByte, State.emitBits_readByte, State.writeBlock_readByte_pb]
  rw [State.readByte_loadChunk_pb, State.setBlk_readByte,
    (hk.trans (keptByParts_hostFieldsKept.setBlk t (BitVec.ofNat 16 k))).chunkByte]

/-- The payload of both copies of a data block. -/
theorem payload_chunk (k : Nat) :
    ((t.setBlk (BitVec.ofNat 16 k)).loadChunk k).payload 1#2 = chunkBytes s k := by
  rw [State.payload_loadChunk, State.setBlk_chunk]
  exact hk.chunkBytes k

theorem readByte_encodeChunk_fb (b k a : Nat) :
    (t.encodeChunk b k).readByte .fb a =
      if a < 262 then (frameBytes s.crcMode 0x44#8 (BitVec.ofNat 16 k) 1#1 (chunkBytes s k)).getD a 0#8
      else t.readByte .fb a := by
  have hlen : payloadLen 1#2 + 6 = 262 := rfl
  simp only [State.encodeChunk, State.goto_readByte, State.emitBits_readByte, State.readByte_writeBlock_fb, hlen,
    State.loadChunk_readByte_fb, State.setBlk_readByte, State.blockFrame_eq, State.goto_payload,
    State.writeBlock_payload, payload_chunk hk, State.goto_crcMode, State.writeBlock_crcMode, State.loadChunk_crcMode,
    State.setBlk_crcMode, hk.crcMode]
  split
  · rfl
  · rfl

theorem encodeChunk_dump (b k : Nat) :
    (t.encodeChunk b k).dt =
      t.dt ++ dumpIfDebug s (pairDump s 0x44#8 (BitVec.ofNat 16 k) fun _ => chunkBytes s k) := by
  have hk₁ := (hk.trans (keptByParts_hostFieldsKept.setBlk t (BitVec.ofNat 16 k))).trans
    (keptByParts_hostFieldsKept.loadChunk _ k)
  have hk₂ := (hk₁.trans (keptByParts_hostFieldsKept.writeBlock _ 1#2 0#1 (BitVec.ofNat 16 k) (by decide))).trans
    (keptByParts_hostFieldsKept.goto _ .dat1)
  simp only [State.encodeChunk, State.goto_dt, State.emitBits_dt]
  rw [State.writeBlock_dump, hk₂.dumpIfDebug, hk₂.crcMode, State.goto_payload, State.writeBlock_payload, State.goto_dt,
    State.writeBlock_dump, hk₁.dumpIfDebug, hk₁.crcMode, payload_chunk hk, State.loadChunk_dt, State.setBlk_dt,
    List.append_assoc, ← dumpIfDebug_append]
  rfl

/-- The dump records of the data blocks `1` to `n`. -/
def dataDump (s : State) (n : Nat) : List DumpRecord :=
  (List.range n).flatMap fun j => pairDump s 0x44#8 (BitVec.ofNat 16 (j + 1)) fun _ => chunkBytes s (j + 1)

theorem encodeChunks_dump (b n : Nat) : (t.encodeChunks b n).dt = t.dt ++ dumpIfDebug s (dataDump s n) := by
  induction n with
  | zero => simp [State.encodeChunks, dataDump, dumpIfDebug]
  | succ n ih =>
    have hsucc : dataDump s (n + 1) =
        dataDump s n ++ pairDump s 0x44#8 (BitVec.ofNat 16 (n + 1)) fun _ => chunkBytes s (n + 1) := by
      simp [dataDump, List.range_succ]
    rw [State.encodeChunks, encodeChunk_dump (hk.trans (keptByParts_hostFieldsKept.encodeChunks t b n)), ih, hsucc,
      dumpIfDebug_append, List.append_assoc]
    rfl

/-! ### The footer -/

section
variable (hc : ClockAfter (recordDraws s) s t) (b : Nat)
include hc

/-- What the record of a copy of the footer is at the state in which the footer is begun. -/
theorem recordAt_footer (copy : Nat) :
    recordAt (t.setBlk (BitVec.ofNat 16 (b + 1))) footerTag (copyClock (t.setBlk (BitVec.ofNat 16 (b + 1))) copy) =
      footerRecord s copy := by
  have hk' := hk.trans (keptByParts_hostFieldsKept.setBlk t (BitVec.ofNat 16 (b + 1)))
  have hc' : ClockAfter (recordDraws s) s (t.setBlk (BitVec.ofNat 16 (b + 1))) := hc.congr rfl rfl
  rw [recordAt_shift hk' hc', hk'.copyClock, footerRecord_eq]

theorem encodeFooter_crc :
    (t.encodeFooter b).crc = crcOf s.crcMode (bodyBytes 0x45#8 (BitVec.ofNat 16 (b + 1)) 1#1 (footerRecord s 1)) := by
  rw [State.encodeFooter_eq, State.setDone_crc, State.goto_crc, State.emitBits_crc, State.goto_crc,
    recordPair_crc _ _ _ _ (by decide) (by decide), recordAt_footer hk hc, State.setBlk_crcMode, hk.crcMode]
  rfl

theorem readByte_encodeFooter_pb (a : Nat) :
    (t.encodeFooter b).readByte .pb a = if a < 80 then (footerRecord s 1).getD a 0#8 else t.readByte .pb a := by
  rw [State.encodeFooter_eq, State.setDone_readByte, State.goto_readByte, State.emitBits_readByte, State.goto_readByte,
    readByte_recordPair_pb _ _ _ _ (by decide) (by decide), recordAt_footer hk hc, State.setBlk_readByte]

theorem readByte_encodeFooter_fb (a : Nat) :
    (t.encodeFooter b).readByte .fb a =
      if a < 86 then (frameBytes s.crcMode 0x45#8 (BitVec.ofNat 16 (b + 1)) 1#1 (footerRecord s 1)).getD a 0#8
      else t.readByte .fb a := by
  rw [State.encodeFooter_eq, State.setDone_readByte, State.goto_readByte, State.emitBits_readByte, State.goto_readByte,
    readByte_recordPair_fb _ _ _ _ (by decide) (by decide), recordAt_footer hk hc, State.setBlk_readByte,
    State.setBlk_crcMode, hk.crcMode]
  rfl

theorem encodeFooter_dump :
    (t.encodeFooter b).dt =
      t.dt ++ dumpIfDebug s (pairDump s 0x45#8 (BitVec.ofNat 16 (b + 1)) (footerRecord s)) := by
  have hk' := hk.trans (keptByParts_hostFieldsKept.setBlk t (BitVec.ofNat 16 (b + 1)))
  rw [State.encodeFooter_eq, State.setDone_dt, State.goto_dt, State.emitBits_dt, State.goto_dt,
    recordPair_dump _ _ _ _ (by decide) (by decide), hk'.dumpIfDebug, hk'.pairDump, State.setBlk_dt]
  simp only [recordAt_footer hk hc]
  rfl

end

end

/-! ### The whole file -/

theorem encodeFile_crc (s : State) :
    s.encodeFile.crc =
      crcOf s.crcMode (bodyBytes 0x45#8 (BitVec.ofNat 16 (s.blockCount + 1)) 1#1 (footerRecord s 1)) :=
  encodeFooter_crc (hostFieldsKept_beforeFooter s) (clockAfter_beforeFooter s) s.blockCount

theorem encodeFile_blk (s : State) : s.encodeFile.blk = BitVec.ofNat 16 (s.blockCount + 1) := by
  rw [State.encodeFile_eq, State.encodeFooter_eq, State.setDone_blk, State.goto_blk, State.emitBits_blk, State.goto_blk,
    recordPair_blk, State.setBlk_blk]

/-- `PB` holds the footer record and the tail of the last chunk (R124 (d)). -/
theorem readByte_encodeFile_pb {s : State} (hpos : 1 ≤ s.blockCount) (a : Nat) :
    s.encodeFile.readByte .pb a =
      if a < 80 then (footerRecord s 1).getD a 0#8
      else if a < 256 then chunkByte s s.blockCount a else s.readByte .pb a := by
  by_cases ha : a < 256
  · obtain ⟨t, hk, hlast⟩ := beforeFooter_eq_encodeChunk hpos
    rw [State.encodeFile_eq, readByte_encodeFooter_pb (hostFieldsKept_beforeFooter s) (clockAfter_beforeFooter s), hlast,
      readByte_encodeChunk_pb hk, if_pos ha, if_pos ha]
  · have hkept : ¬stores .encode .pb a := by simp [stores, ha]
    rw [if_neg (by omega), if_neg ha, (keptByParts_storesWithin.encodeFile s).readByte hkept]

/-- `FB` holds the frame of the second footer copy over that of the last data block (R124 (d)). -/
theorem readByte_encodeFile_fb {s : State} (hpos : 1 ≤ s.blockCount) (a : Nat) :
    s.encodeFile.readByte .fb a =
      if a < 86 then
        (frameBytes s.crcMode 0x45#8 (BitVec.ofNat 16 (s.blockCount + 1)) 1#1 (footerRecord s 1)).getD a 0#8
      else if a < 262 then
        (frameBytes s.crcMode 0x44#8 (BitVec.ofNat 16 s.blockCount) 1#1 (chunkBytes s s.blockCount)).getD a 0#8
      else s.readByte .fb a := by
  by_cases ha : a < 262
  · obtain ⟨t, hk, hlast⟩ := beforeFooter_eq_encodeChunk hpos
    rw [State.encodeFile_eq, readByte_encodeFooter_fb (hostFieldsKept_beforeFooter s) (clockAfter_beforeFooter s), hlast,
      readByte_encodeChunk_fb hk, if_pos ha, if_pos ha]
  · have hkept : ¬stores .encode .fb a := by simp [stores, ha]
    rw [if_neg (by omega), if_neg ha, (keptByParts_storesWithin.encodeFile s).readByte hkept]

/-- Under `CTRL.DBG` every block of the file is dumped (42_block_framer.md R105). -/
theorem encodeFile_dump (s : State) : s.encodeFile.dt = s.dt ++ dumpIfDebug s (fileDump s) := by
  have hk₀ := keptByParts_hostFieldsKept.encodeStart s
  have hc₀ : ClockAfter 0 s s.encodeStart := .of_eq rfl rfl
  have hdt : s.encodeStart.dt = s.dt := rfl
  rw [State.encodeFile_eq, encodeFooter_dump (hostFieldsKept_beforeFooter s) (clockAfter_beforeFooter s),
    State.beforeFooter, encodeChunks_dump (hostFieldsKept_header s), encodeHeader_dump hk₀ hc₀, hdt, List.append_assoc,
    List.append_assoc, ← dumpIfDebug_append, ← dumpIfDebug_append, ← List.append_assoc (pairDump ..)]
  rfl

/-- Two dump records for each of the B + 2 logical blocks. -/
theorem length_fileDump (s : State) : (fileDump s).length = 2 * (dataBlocks s + 2) := by
  simp only [fileDump, pairDump, List.length_append, List.length_flatMap, List.length_cons, List.length_nil,
    List.map_const', List.length_range, List.sum_replicate, smul_eq_mul]
  omega

theorem clockAfter_encodeFile (s : State) : ClockAfter (clockDraws s) s s.encodeFile := by
  have hc : ClockAfter (recordDraws s) s (s.beforeFooter.setBlk (BitVec.ofNat 16 (s.blockCount + 1))) :=
    (clockAfter_beforeFooter s).congr rfl rfl
  have hparams : recordDraws (s.beforeFooter.setBlk (BitVec.ofNat 16 (s.blockCount + 1))) = recordDraws s := by
    simp only [recordDraws, State.setBlk_params, (hostFieldsKept_beforeFooter s).params]
  have hdraws : clockDraws s = recordDraws s + recordDraws s := by
    unfold clockDraws recordDraws
    split <;> rfl
  have hpair := hc.trans (clockAfter_recordPair _ footerTag (u := 2#2) (BitVec.ofNat 16 (s.blockCount + 1)) .ftr1
    (by decide))
  rw [hparams, ← hdraws] at hpair
  exact hpair.congr rfl rfl

/-- Of the parts of an `ENCODE` only `setDone` writes `STATUS`, and only the bit `DONE`. -/
theorem keptByParts_statusButDone : KeptByParts fun s t => t.status &&& 0xFD#8 = s.status &&& 0xFD#8 where
  refl _ := rfl
  trans _ _ _ hst htu := htu.trans hst
  emit _ _ := rfl
  goto _ _ := rfl
  setBlk _ _ := rfl
  setDone s b := by simp only [State.setDone_status]; generalize s.status = x; revert b x; decide
  buildRecord s tag4 := by rw [State.buildRecord_status]
  storeFrame _ _ _ _ _ := rfl
  loadChunk s k := by rw [State.loadChunk_status]

/-- Where the host's fields are kept, the engine's own fields and the clock port are all that can have changed. -/
theorem HostFieldsKept.frame {n : Nat} {s t : State} (hk : HostFieldsKept s t) (hc : ClockAfter n s t) :
    t = { s with
      status := t.status, crc := t.crc, seqst := t.seqst, blk := t.blk, pb := t.pb, fb := t.fb, sb := t.sb,
      pt := t.pt, dt := t.dt, clk := s.clk.drop n, clkReads := s.clkReads + (n - s.clk.length) } := by
  obtain ⟨hparams, hctrl, hplen, hnamelen, hftype, hpm, hname, hhost, hread⟩ := hk
  obtain ⟨hclk, hreads⟩ := hc
  rw [← hparams, ← hctrl, ← hplen, ← hnamelen, ← hftype, ← hpm, ← hname, ← hhost, ← hread, ← hclk, ← hreads]

end Sys2Proof.Machine
end

section
/-! SUPPORT. The number of pulses of a file, part by part (44_sequencer.md R125). -/

namespace Sys2Proof.Machine

theorem length_frameBytes (mode : CrcMode) (tag : Byte) (q : Half16) (c : BitVec 1) (payload : List Byte) :
    (frameBytes mode tag q c payload).length = payload.length + 6 := by
  simp [frameBytes, withChecksum, length_bodyBytes]

theorem length_onMedium (g : Nat) (frame : List Byte) : (onMedium g frame).length = 117 + 9 * frame.length + 9 * g := by
  rw [← blockBits_eq, length_blockBits]

/-- A pair of blocks whose payloads have one length (42_block_framer.md R106). -/
theorem length_pairOnMedium (s : State) (tag : Byte) (q : Half16) {payload : Nat → List Byte} {n : Nat}
    (h : ∀ copy, (payload copy).length = n) :
    (pairOnMedium s tag q payload).length = 2 * (171 + 9 * n + 9 * s.params.blockTrailGap) := by
  rw [pairOnMedium, List.length_append, length_onMedium, length_onMedium, length_frameBytes, length_frameBytes, h, h]
  omega

@[simp] theorem length_headerRecord (s : State) (copy : Nat) : (headerRecord s copy).length = 80 :=
  length_recordOf _ _ _ _ _

@[simp] theorem length_footerRecord (s : State) (copy : Nat) : (footerRecord s copy).length = 80 :=
  length_recordOf _ _ _ _ _

theorem length_dataOnMedium (s : State) (n : Nat) :
    (dataOnMedium s n).length = (2 * (2475 + 9 * s.params.blockTrailGap) + 2700) * n := by
  have hpair (j : Nat) := length_pairOnMedium s 0x44#8 (BitVec.ofNat 16 (j + 1)) (n := 256)
    (fun _ => length_chunkBytes s (j + 1))
  simp only [dataOnMedium, List.length_flatMap, List.length_append, hpair, length_ones, List.map_const',
    List.length_range, List.sum_replicate, smul_eq_mul]
  rw [Nat.mul_comm]

theorem durations_ones (n : Nat) : durations (ones n) = List.replicate n 1000#16 := List.map_replicate

end Sys2Proof.Machine
end

section
/-! SUPPORT. A file as a sequence of logical blocks: header, data blocks, footer (44_sequencer.md R126). -/

namespace Sys2Proof.Machine

/-- The type tag of the logical block `j` of a file. -/
def logicalTag (s : State) (j : Nat) : Byte :=
  if j = 0 then 0x48#8 else if j ≤ dataBlocks s then 0x44#8 else 0x45#8

/-- Its sequence number. -/
def logicalSeq (s : State) (j : Nat) : Half16 := if j = 0 then s.params.hdrSeq else BitVec.ofNat 16 j

/-- Its payload, that of a record as copy 0 has it. -/
def logicalPayload (s : State) (j : Nat) : List Byte :=
  if j = 0 then headerRecord s 0 else if j ≤ dataBlocks s then chunkBytes s j else footerRecord s 0

/-- The number of bytes of the gap behind its two copies; the footer has the file gap. -/
def logicalGap (s : State) (j : Nat) : Nat := if j = 0 then 100 else if j ≤ dataBlocks s then 300 else 0

/-- The logical block `j` on the medium: its two copies and the gap. -/
def logicalOnMedium (s : State) (j : Nat) : List Bool :=
  pairOnMedium s (logicalTag s j) (logicalSeq s j) (fun _ => logicalPayload s j) ++ ones (9 * logicalGap s j)

theorem logicalOnMedium_header (s : State) :
    logicalOnMedium s 0 = pairOnMedium s 0x48#8 s.params.hdrSeq (fun _ => headerRecord s 0) ++ ones 900 := rfl

theorem logicalOnMedium_data {s : State} {j : Nat} (hj : j < dataBlocks s) :
    logicalOnMedium s (j + 1) =
      pairOnMedium s 0x44#8 (BitVec.ofNat 16 (j + 1)) (fun _ => chunkBytes s (j + 1)) ++ ones 2700 := by
  have hne : j + 1 ≠ 0 := Nat.succ_ne_zero j
  have hle : j + 1 ≤ dataBlocks s := hj
  simp only [logicalOnMedium, logicalTag, logicalSeq, logicalPayload, logicalGap, if_neg hne, if_pos hle]

theorem logicalOnMedium_footer (s : State) :
    logicalOnMedium s (dataBlocks s + 1) =
      pairOnMedium s 0x45#8 (BitVec.ofNat 16 (dataBlocks s + 1)) (fun _ => footerRecord s 0) := by
  have hne : dataBlocks s + 1 ≠ 0 := Nat.succ_ne_zero _
  have hgt : ¬dataBlocks s + 1 ≤ dataBlocks s := by omega
  simp only [logicalOnMedium, logicalTag, logicalSeq, logicalPayload, logicalGap, if_neg hne, if_neg hgt]
  exact List.append_nil _

theorem pairOnMedium_congr (s : State) (tag : Byte) (q : Half16) {payload payload' : Nat → List Byte}
    (h0 : payload 0 = payload' 0) (h1 : payload 1 = payload' 1) :
    pairOnMedium s tag q payload = pairOnMedium s tag q payload' := by simp only [pairOnMedium, h0, h1]

/-- Where the two copies of each record are alike, a file is its logical blocks between the two file gaps. -/
theorem fileOnMedium_eq_logical {s : State} (hheader : headerRecord s 1 = headerRecord s 0)
    (hfooter : footerRecord s 1 = footerRecord s 0) :
    fileOnMedium s = ones 5526 ++ (List.range (dataBlocks s + 2)).flatMap (logicalOnMedium s) ++ ones 5526 := by
  have hdata : dataOnMedium s (dataBlocks s) =
      (List.range (dataBlocks s)).flatMap fun j => logicalOnMedium s (j + 1) :=
    List.flatMap_congr fun j hj => (logicalOnMedium_data (List.mem_range.mp hj)).symm
  have hB : s.blockCount = dataBlocks s := rfl
  rw [fileOnMedium_eq, hB, hdata, pairOnMedium_congr s 0x48#8 s.params.hdrSeq (payload' := fun _ => headerRecord s 0) rfl
    hheader, pairOnMedium_congr s 0x45#8 _ (payload' := fun _ => footerRecord s 0) rfl hfooter,
    ← logicalOnMedium_footer, List.range_succ, List.range_succ_eq_map]
  simp only [List.cons_append, List.flatMap_cons, List.flatMap_append, List.flatMap_map, List.flatMap_nil,
    logicalOnMedium_header, List.append_assoc, List.append_nil, Nat.succ_eq_add_one]

theorem length_logicalPayload (s : State) (j : Nat) :
    (logicalPayload s j).length = if j = 0 then 80 else if j ≤ dataBlocks s then 256 else 80 := by
  simp only [logicalPayload, apply_ite List.length, length_headerRecord, length_chunkBytes, length_footerRecord]

theorem toNat_logicalSeq (s : State) {j : Nat} (hj : j < 65536) :
    (logicalSeq s j).toNat = if j = 0 then s.params.hdrSeq.toNat else j := by
  have hnat : (BitVec.ofNat 16 j).toNat = j := by
    rw [BitVec.toNat_ofNat]
    exact Nat.mod_eq_of_lt hj
  rw [logicalSeq, apply_ite BitVec.toNat, hnat]

/-- The copies of a record are alike if it is built once, or if both builds see the same clock (R123;
90_conflicts.md C3). -/
theorem recordClock_one_eq {s : State} {record : Nat}
    (h : s.params.metaPerCopy = true → s.clockAt (2 * record) = s.clockAt (2 * record + 1)) :
    recordClock s record 1 = recordClock s record 0 := by
  unfold recordClock
  split
  · exact (h ‹_›).symm
  · rfl

end Sys2Proof.Machine
end

section
/-! SUPPORT. What a file depends on: the inputs of an `ENCODE` and the clock samples of its records
(44_sequencer.md R128). -/

namespace Sys2Proof.Machine

/-! ### The clock in a record -/

/-- Writes that stay at their places and agree where they cover a byte leave the same byte there. -/
theorem getElem?_putFields_congr_writes {rec rec' : List Byte} {i : Nat} (hlen : rec'.length = rec.length)
    (hi : i < rec.length) (h : rec[i]? = rec'[i]?) {ws ws' : List (Nat × List Byte)}
    (hws : List.Forall₂ (fun w w' => extent w = extent w' ∧ (w.1 ≤ i → i < w.1 + w.2.length → w = w')) ws ws') :
    (putFields rec ws)[i]? = (putFields rec' ws')[i]? := by
  induction hws generalizing rec rec' with
  | nil => exact h
  | @cons w w' ws ws' hw _ ih =>
    obtain ⟨hextent, hagree⟩ := hw
    obtain ⟨hoff, hsize⟩ : w.1 = w'.1 ∧ w.2.length = w'.2.length := Prod.mk.inj hextent
    rw [putFields_cons, putFields_cons]
    refine ih (by simpa using hlen) (by simpa using hi) ?_
    rw [getElem?_putBytes _ _ _ _ hi, getElem?_putBytes _ _ _ _ (hlen ▸ hi), ← hoff, ← hsize]
    split
    · obtain ⟨hlo, hhi⟩ := ‹w.1 ≤ i ∧ i < w.1 + w.2.length›
      rw [hagree hlo hhi]
    · exact h

/-- The clock reaches the twelve bytes of the date and of the time, and no others (43_metadata.md R113). -/
theorem getElem?_recordOf_clock_irrelevant (p : Params) (tag4 name : List Byte) (ft : BitVec 2) (clk clk' : Clock)
    {a : Nat} (hdate : ¬(p.offDate ≤ a ∧ a < p.offDate + 6)) (htime : ¬(p.offTime ≤ a ∧ a < p.offTime + 6)) :
    (recordOf p tag4 name ft clk)[a]? = (recordOf p tag4 name ft clk')[a]? := by
  by_cases ha : a < 80
  · rw [recordOf_eq, recordOf_eq]
    refine getElem?_putFields_congr_writes rfl (by simpa using ha) rfl ?_
    have hsame (w : Nat × List Byte) : extent w = extent w ∧ (w.1 ≤ a → a < w.1 + w.2.length → w = w) :=
      ⟨rfl, fun _ _ => rfl⟩
    have hdigits {off : Nat} (hout : ¬(off ≤ a ∧ a < off + 6)) (dig dig' : Nat → Byte) :
        extent (off, (List.range 6).map dig) = extent (off, (List.range 6).map dig') ∧
          (off ≤ a → a < off + ((List.range 6).map dig).length →
            (off, (List.range 6).map dig) = (off, (List.range 6).map dig')) := by
      refine ⟨by simp [extent], fun hlo hhi => absurd ⟨hlo, ?_⟩ hout⟩
      simpa using hhi
    exact .cons (hsame _) (.cons (hsame _) (.cons (hsame _) (.cons (hsame _) (.cons (hsame _) (.cons (hsame _)
      (.cons (hdigits hdate _ _) (.cons (hdigits htime _ _) (.cons (hsame _) (.cons (hsame _) .nil)))))))))
  · rw [List.getElem?_eq_none (by simpa using ha), List.getElem?_eq_none (by simpa using ha)]

/-! ### The other inputs -/

/-- What does not look at `META_PER_COPY` is the same for parameters that differ in it alone. -/
theorem Params.agree {p p' : Params} (h : { p with metaPerCopy := false } = { p' with metaPerCopy := false })
    {α : Type} (f : Params → α) (hf : ∀ p : Params, f { p with metaPerCopy := false } = f p) : f p = f p' := by
  rw [← hf p, h, hf p']

/-- A record takes eight bytes of the name (R110). -/
theorem recordOf_take_name (p : Params) (tag4 name : List Byte) (ft : BitVec 2) (clk : Clock) :
    recordOf p tag4 (name.take 8) ft clk = recordOf p tag4 name ft clk := by
  simp only [recordOf_eq, fieldWrites, List.take_take, Nat.min_self]

theorem State.take_readBytes (s : State) (b : Buffer) (a n m : Nat) :
    (s.readBytes b a n).take m = s.readBytes b a (min n m) := by
  rw [State.readBytes_eq, ← List.map_take, List.take_range, Nat.min_comm, State.readBytes_eq]

namespace SameButClock

variable {s s' : State} (h : SameButClock s s')
include h

theorem dataBlocks : dataBlocks s = dataBlocks s' := by simp only [Machine.dataBlocks, h.plen]

theorem chunkByte (k i : Nat) : chunkByte s k i = chunkByte s' k i := by
  unfold Machine.chunkByte
  rw [← h.plen]
  split
  · exact h.program _ ‹_›
  · rfl

theorem chunkBytes (k : Nat) : chunkBytes s k = chunkBytes s' k :=
  List.map_congr_left fun i _ => h.chunkByte k i

/-- At the same clock the two states give the same record. -/
theorem recordOf (tag4 : List Byte) (clk : Clock) :
    recordOf s.params tag4 (s.readBytes .name 0 s.namelen.toNat) s.ftype clk =
      recordOf s'.params tag4 (s'.readBytes .name 0 s'.namelen.toNat) s'.ftype clk := by
  have hname : s.readBytes .name 0 (min s.namelen.toNat 8) = s'.readBytes .name 0 (min s.namelen.toNat 8) := by
    rw [State.readBytes_eq, State.readBytes_eq]
    refine List.map_congr_left fun i hi => ?_
    rw [Nat.zero_add, h.name i (List.mem_range.mp hi)]
  rw [← recordOf_take_name s.params, ← recordOf_take_name s'.params, State.take_readBytes, State.take_readBytes, hname,
    ← h.namelen, ← h.ftype]
  exact Params.agree h.params (Machine.recordOf · tag4 _ s.ftype clk) fun _ => rfl

/-- At different clocks the two records differ in the date and the time alone. -/
theorem getElem?_recordOf (tag4 : List Byte) (clk clk' : Clock) {a : Nat}
    (hdate : ¬(s.params.offDate ≤ a ∧ a < s.params.offDate + 6))
    (htime : ¬(s.params.offTime ≤ a ∧ a < s.params.offTime + 6)) :
    (Machine.recordOf s.params tag4 (s.readBytes .name 0 s.namelen.toNat) s.ftype clk)[a]? =
      (Machine.recordOf s'.params tag4 (s'.readBytes .name 0 s'.namelen.toNat) s'.ftype clk')[a]? := by
  rw [← h.recordOf tag4 clk', getElem?_recordOf_clock_irrelevant _ _ _ _ _ _ hdate htime]

theorem pairOnMedium (tag : Byte) (q : Half16) (payload : Nat → List Byte) :
    pairOnMedium s tag q payload = pairOnMedium s' tag q payload := by
  have hgap := Params.agree h.params Params.blockTrailGap fun _ => rfl
  simp only [Machine.pairOnMedium, hgap, h.mode]

/-- `RISE` and `FALL` are the same, and so is the rendering of every pulse. -/
theorem render (ds : List Duration) : render s.params ds = render s'.params ds :=
  Params.agree h.params (Machine.render · ds) fun _ => rfl

/-- What the one state needs to run a whole `ENCODE` the other has, if it holds no error. -/
theorem accepted (hacc : s.EncodeAccepted) (he : s'.err = 0#3) : s'.EncodeAccepted := by
  have ⟨_, hplen, hmax⟩ := hacc
  exact ⟨he, h.plen ▸ hplen, h.plen ▸ hmax⟩

theorem unbounded (hcap : s.params.sbCapacity = none) : s'.params.sbCapacity = none :=
  (Params.agree h.params Params.sbCapacity fun _ => rfl).symm.trans hcap

end SameButClock

/-- With the same clock sample in each record the two files are the same. -/
theorem SameEncodeInputs.fileOnMedium {s s' : State} (h : SameEncodeInputs s s') : fileOnMedium s = fileOnMedium s' := by
  have hsame := h.toSameButClock
  have hheader (copy : Nat) (hcopy : copy < 2) : headerRecord s copy = headerRecord s' copy := by
    rw [headerRecord, h.clock 0 copy (by decide) hcopy, hsame.recordOf, headerRecord]
  have hfooter (copy : Nat) (hcopy : copy < 2) : footerRecord s copy = footerRecord s' copy := by
    rw [footerRecord, h.clock 1 copy (by decide) hcopy, hsame.recordOf, footerRecord]
  have hseq := Params.agree hsame.params Params.hdrSeq fun _ => rfl
  simp only [Machine.fileOnMedium, hsame.pairOnMedium, hsame.chunkBytes, hsame.dataBlocks, hseq]
  rw [pairOnMedium_congr s' _ _ (hheader 0 (by decide)) (hheader 1 (by decide)),
    pairOnMedium_congr s' _ _ (hfooter 0 (by decide)) (hfooter 1 (by decide))]

end Sys2Proof.Machine
end

section
/-! PROOFS. The obligations on the sequencer (44_sequencer.md). -/

namespace Sys2Proof.Machine

/-- Settles O28: `RESET` is one record update; of the other commands `NORM` keeps the number of samples and the
rest append. -/
theorem resetCommandResult : Obligations.ResetCommandResult := by
  refine ⟨fun s => ?_, fun w hop harg => ?_, fun i s t hi h => ?_⟩
  · exact ⟨s.clear, exec_reset s, rfl, rfl, rfl, rfl, rfl, s.clear_done, s.clear_err, rfl⟩
  · refine decode_illArg_of_reserved (by simp [hop, legalOpcodes]) ?_
    have hbits : ~~~operandBits 0x01#8 = BitVec.allOnes 24 := by decide
    rwa [hop, hbits, BitVec.and_allOnes]
  · obtain ⟨rfl, -⟩ | ⟨a, -, rfl⟩ | ⟨happ, -⟩ := (effect_of_exec h).traces
    · exact absurd rfl hi
    · exact (length_normalizeSamples _ _ _).ge
    · exact happ.sb_prefix.length_le

/-- Settles O50: a chunk is a map over its indices, and a load writes it over the whole of `PB`. -/
theorem chunksPadLastBlock : Obligations.ChunksPadLastBlock := by
  intro s k i hk hkB hi
  have hbyte := getElem?_chunkBytes s k hi
  refine ⟨hbyte, ?_, fun hlt => ?_, mul_lt_plen_of_lt_dataBlocks (by omega)⟩
  · rw [State.readByte_loadChunk_pb, if_pos hi, State.chunk_eq, hbyte]
  · have := mul_lt_plen_of_lt_dataBlocks hlt
    omega

/-- Settles O51: the big step, each trace, buffer and register by its own lemma. -/
theorem encodeResult : Obligations.EncodeResult := by
  intro s hacc hfits
  have ⟨_, hplen, hmax⟩ := hacc
  obtain ⟨hpos, hle⟩ := blockCount_bounds hplen hmax
  refine ⟨s.encodeFile, exec_encode_of_fits hacc hfits, encodeFile_pulses s, encodeFile_samples s, rfl,
    State.setDone_done _ true, keptByParts_statusButDone.encodeFile s, ?_, encodeFile_crc s, readByte_encodeFile_pb hpos,
    readByte_encodeFile_fb hpos, fun hdbg => ?_, fun hdbg => ⟨?_, length_fileDump s⟩,
    (keptByParts_hostFieldsKept.encodeFile s).frame (clockAfter_encodeFile s)⟩
  · rw [encodeFile_blk, BitVec.toNat_ofNat]
    exact Nat.mod_eq_of_lt (by omega)
  · rw [encodeFile_dump, dumpIfDebug, State.dbg, hdbg, if_neg (by decide), List.append_nil]
  · rw [encodeFile_dump, dumpIfDebug, State.dbg, hdbg, if_pos rfl]

/-- Settles O52: the lengths of the parts of the file, and their sum. -/
theorem encodePulseCount : Obligations.EncodePulseCount := by
  intro s g hacc hcap hg
  have hheader := length_pairOnMedium s 0x48#8 s.params.hdrSeq (length_headerRecord s)
  have hdata := length_dataOnMedium s s.blockCount
  have hfooter := length_pairOnMedium s 0x45#8 (BitVec.ofNat 16 (s.blockCount + 1)) (length_footerRecord s)
  have hfile : (fileOnMedium s).length = (15516 + 36 * g) + (7650 + 18 * g) * s.blockCount := by
    simp only [fileOnMedium_eq, List.length_append, hheader, hdata, hfooter, length_ones, ← hg]
    ring
  have hB : dataBlocks s = s.blockCount := rfl
  refine ⟨s.encodeFile, durations (pairOnMedium s 0x48#8 s.params.hdrSeq (headerRecord s)),
    durations (dataOnMedium s s.blockCount),
    durations (pairOnMedium s 0x45#8 (BitVec.ofNat 16 (s.blockCount + 1)) (footerRecord s)),
    durations (fileOnMedium s), exec_encode_of_unbounded hacc hcap, encodeFile_pulses s, ?_, ?_, ?_, ?_, ?_,
    fun h100 => ?_, fun hfloor => ?_⟩
  · simp only [fileOnMedium_eq, durations_append, durations_ones, List.append_assoc]
  · rw [length_durations_eq_length, hheader, hg]
  · rw [length_durations_eq_length, hfooter, hg]
  · rw [length_durations_eq_length, hdata, hg, hB]
  · rw [length_durations_eq_length, hfile, hB]
  · rw [length_durations_eq_length, hfile, h100, hB]
  · rw [encodeFile_samples, List.length_append, length_render_durations, if_pos hfloor, count_long_durations,
      count_short_durations, Nat.add_assoc]

/-- Settles O53: the logical blocks of the file, whose two copies differ in the copy index and so in the checksum. -/
theorem encodeDoubleWrite : Obligations.EncodeDoubleWrite := by
  intro s hacc hcap hclock
  have ⟨_, hplen, hmax⟩ := hacc
  obtain ⟨-, hle⟩ := blockCount_bounds hplen hmax
  have hB : dataBlocks s = s.blockCount := rfl
  have hheader : headerRecord s 1 = headerRecord s 0 := by
    rw [headerRecord, headerRecord, recordClock_one_eq fun hm => (hclock hm).1]
  have hfooter : footerRecord s 1 = footerRecord s 0 := by
    rw [footerRecord, footerRecord, recordClock_one_eq fun hm => (hclock hm).2]
  refine ⟨s.encodeFile, logicalTag s, logicalSeq s, logicalPayload s, logicalGap s, exec_encode_of_unbounded hacc hcap,
    ?_, fun j hj => ⟨rfl, length_logicalPayload s j, rfl, toNat_logicalSeq s (by omega),
      crcOf_bodyBytes_ne (by decide) _ _ _ _⟩⟩
  rw [encodeFile_pulses, fileOnMedium_eq_logical hheader hfooter]
  rfl

/-- Settles O54: the file is computed from the inputs and the clock samples; the clock reaches the date and the
time alone. -/
theorem encodeReproducible : Obligations.EncodeReproducible := by
  refine ⟨fun s s' h hcap hacc he hsb hsb' => ?_, fun s s' h hcap hacc he => ?_⟩
  · have hsame := h.toSameButClock
    have hsamples : s.encodeFile.sb = s'.encodeFile.sb := by
      rw [encodeFile_samples, encodeFile_samples, hsb, hsb', h.fileOnMedium, hsame.render]
    exact ⟨_, _, exec_encode_of_unbounded hacc hcap,
      exec_encode_of_unbounded (hsame.accepted hacc he) (hsame.unbounded hcap), hsamples, congrArg List.length hsamples⟩
  · exact ⟨_, _, exec_encode_of_unbounded hacc hcap, exec_encode_of_unbounded (h.accepted hacc he) (h.unbounded hcap),
      encodeFile_pulses s, encodeFile_pulses s', h.dataBlocks, h.chunkBytes, fun copy a hdate htime =>
      ⟨h.getElem?_recordOf _ _ _ hdate htime, h.getElem?_recordOf _ _ _ hdate htime⟩⟩

/-- Settles O55: header, chunks and footer of the big step are four, three each, and three arrows. -/
theorem sequencerSmallSteps : Obligations.SequencerSmallSteps := by
  intro s hplen hmax
  obtain ⟨hpos, hle⟩ := blockCount_bounds hplen hmax
  have hcount := (hostFieldsKept_header s).blockCount
  have hcount' := (hostFieldsKept_beforeFooter s).blockCount
  have hftr0 : s.beforeFooter.seqst = .ftr0 := by
    obtain ⟨t, -, hlast⟩ := beforeFooter_eq_encodeChunk hpos
    rw [hlast, State.encodeChunk_seqst, if_neg (lt_irrefl _)]
  have hsteps : 7 + 3 * dataBlocks s = 3 + (3 * s.blockCount + 4) := by
    have hB : dataBlocks s = s.blockCount := rfl
    omega
  have hchunks := State.seqStep_chunks (s := s.encodeStart.encodeHeader) rfl hcount.ge (hcount ▸ hle)
  rw [hcount] at hchunks
  have hfooter := State.seqStep_footer hftr0
  rw [hcount'] at hfooter
  rw [hsteps, repeat_add, repeat_add, State.seqStep_header rfl, hchunks, ← State.beforeFooter, hfooter,
    State.encodeFile_eq]

end Sys2Proof.Machine
end

section
/-! SUPPORT. What `NORM` does in the terms of 45_normalizer.md: the rescaled sample as a rounded and clamped rational (R134),
and the extremes of a buffer, which fix what becomes of it (R132, R135, R136). -/

namespace Sys2Proof.Machine

/-- The rational `q` of R134, before it is clamped. -/
def rescaleQuotient (mn mx a s : Nat) : ℚ := 128 + (2 * (s : ℚ) - mx - mn) * a / ((mx : ℚ) - mn)

/-- The rational `q` of R134, clamped to the range of a sample. -/
def clampedQuotient (mn mx a s : Nat) : ℚ := min 255 (max 0 (rescaleQuotient mn mx a s))

/-- What `NORM_ROUND` adds before it takes the floor (R134). -/
def roundingOffset : NormRound → ℚ
  | .floor => 0
  | .nearest => 1 / 2

theorem roundingOffset_nonneg (r : NormRound) : 0 ≤ roundingOffset r := by
  cases r <;> norm_num [roundingOffset]

theorem roundingOffset_lt_one (r : NormRound) : roundingOffset r < 1 := by
  cases r <;> norm_num [roundingOffset]

/-- Both roundings of R134 are the floor of the rational, one of them after adding a half. -/
theorem roundQuotient_eq_floor (r : NormRound) (num : Int) {den : Int} (hden : 0 < den) :
    roundQuotient r num den = ⌊(num : ℚ) / den + roundingOffset r⌋ := by
  have hfloor (n d : Int) (hd : 0 < d) : n / d = ⌊(n : ℚ) / d⌋ := by
    rw [Int.floor_div_cast_of_nonneg hd.le, Int.floor_intCast]
  have hpos : (den : ℚ) ≠ 0 := by exact_mod_cast hden.ne'
  cases r with
  | floor => simp [roundQuotient, roundingOffset, hfloor num den hden]
  | nearest =>
    rw [roundQuotient, hfloor _ _ (by omega), roundingOffset]
    push_cast
    congr 1
    field_simp

section
variable {mn mx : Nat} (hlt : mn < mx)
include hlt

/-- The range of the buffer, by which R134 divides. -/
theorem cast_sub_cast_pos : (0 : ℚ) < (mx : ℚ) - mn := sub_pos.mpr (by exact_mod_cast hlt)

/-- The numerator of the model over the range of the buffer is the clamped rational. -/
theorem clampNum_div_eq (a s : Nat) :
    (clampNum ((mx : Int) - mn) (rescaleNum mn mx a s) : ℚ) / ((mx : ℚ) - mn) = clampedQuotient mn mx a s := by
  have hpos := cast_sub_cast_pos hlt
  have hquot : (rescaleNum mn mx a s : ℚ) / ((mx : ℚ) - mn) = rescaleQuotient mn mx a s := by
    simp only [rescaleNum, Config.normCenter, rescaleQuotient]
    push_cast
    field_simp
  rw [clampedQuotient, ← hquot, clampNum]
  push_cast
  rw [← min_div_div_right hpos.le, ← max_div_div_right hpos.le, mul_div_cancel_right₀ _ hpos.ne', zero_div]

/-- A rescaled sample is the clamped rational, rounded (R134): the byte loses nothing. -/
theorem toNat_rescale (r : NormRound) (a : Nat) (s : Byte) :
    ((rescale r mn mx a s).toNat : ℤ) = ⌊clampedQuotient mn mx a s.toNat + roundingOffset r⌋ := by
  have hround := roundQuotient_eq_floor r (clampNum ((mx : Int) - mn) (rescaleNum mn mx a s.toNat))
    (den := (mx : Int) - mn) (by omega)
  push_cast at hround
  rw [clampNum_div_eq hlt] at hround
  have hlow : 0 ≤ ⌊clampedQuotient mn mx a s.toNat + roundingOffset r⌋ :=
    Int.floor_nonneg.mpr (add_nonneg (le_min (by norm_num) (le_max_left _ _)) (roundingOffset_nonneg r))
  have hhigh : ⌊clampedQuotient mn mx a s.toNat + roundingOffset r⌋ < 256 :=
    Int.floor_lt.mpr (by
      have hclamp : clampedQuotient mn mx a s.toNat ≤ 255 := min_le_left _ _
      have hoff := roundingOffset_lt_one r
      push_cast
      linarith)
  rw [rescale, hround, BitVec.toNat_ofInt]
  omega

/-- Rounding leaves an integer as it is. -/
theorem toNat_rescale_of_eq {a : Nat} {s : Byte} {k : Nat} (h : clampedQuotient mn mx a s.toNat = k) (r : NormRound) :
    (rescale r mn mx a s).toNat = k := by
  have hfloor : ⌊(k : ℚ) + roundingOffset r⌋ = k :=
    Int.floor_eq_iff.mpr ⟨by simpa using roundingOffset_nonneg r, by simpa using roundingOffset_lt_one r⟩
  exact_mod_cast (toNat_rescale hlt r a s).trans (h ▸ hfloor)

/-- Rounding moves the clamped rational by less than 1. -/
theorem abs_toNat_rescale_sub_lt_one (r : NormRound) (a : Nat) (s : Byte) :
    |((rescale r mn mx a s).toNat : ℚ) - clampedQuotient mn mx a s.toNat| < 1 := by
  have hcast : ((rescale r mn mx a s).toNat : ℚ) = (⌊clampedQuotient mn mx a s.toNat + roundingOffset r⌋ : ℤ) := by
    exact_mod_cast toNat_rescale hlt r a s
  have hle := Int.floor_le (clampedQuotient mn mx a s.toNat + roundingOffset r)
  have hgt := Int.lt_floor_add_one (clampedQuotient mn mx a s.toNat + roundingOffset r)
  have hoff := roundingOffset_nonneg r
  have hoff' := roundingOffset_lt_one r
  rw [hcast, abs_lt]
  constructor <;> linarith

/-- A greater sample has a greater rational. -/
theorem rescaleQuotient_mono (a : Nat) {x y : Nat} (hxy : x ≤ y) :
    rescaleQuotient mn mx a x ≤ rescaleQuotient mn mx a y := by
  have hpos := cast_sub_cast_pos hlt
  have hcast : (x : ℚ) ≤ y := by exact_mod_cast hxy
  unfold rescaleQuotient
  gcongr

/-- The rescaling keeps the order of the samples, whatever the rounding and the amplitude (R136). -/
theorem toNat_rescale_mono (r : NormRound) (a : Nat) {x y : Byte} (hxy : x.toNat ≤ y.toNat) :
    (rescale r mn mx a x).toNat ≤ (rescale r mn mx a y).toNat := by
  have hclamp : clampedQuotient mn mx a x.toNat ≤ clampedQuotient mn mx a y.toNat :=
    min_le_min_left _ (max_le_max_left _ (rescaleQuotient_mono hlt a hxy))
  have hfloor := Int.floor_mono (add_le_add_left hclamp (roundingOffset r))
  rw [← toNat_rescale hlt, ← toNat_rescale hlt] at hfloor
  exact_mod_cast hfloor

theorem rescaleQuotient_least (a : Nat) : rescaleQuotient mn mx a mn = 128 - a := by
  have hne := (cast_sub_cast_pos hlt).ne'
  unfold rescaleQuotient
  field_simp
  ring

theorem rescaleQuotient_greatest (a : Nat) : rescaleQuotient mn mx a mx = 128 + a := by
  have hne := (cast_sub_cast_pos hlt).ne'
  unfold rescaleQuotient
  field_simp
  ring

/-- A sample between the extremes goes to the target range (R134). -/
theorem rescaleQuotient_mem_target (a : Nat) {s : Nat} (hmn : mn ≤ s) (hmx : s ≤ mx) :
    128 - (a : ℚ) ≤ rescaleQuotient mn mx a s ∧ rescaleQuotient mn mx a s ≤ 128 + a :=
  ⟨rescaleQuotient_least hlt a ▸ rescaleQuotient_mono hlt a hmn,
    rescaleQuotient_greatest hlt a ▸ rescaleQuotient_mono hlt a hmx⟩

/-- Up to an amplitude of 127 the clamp does not act between the extremes (R134). -/
theorem clampedQuotient_eq {a s : Nat} (ha : a ≤ 127) (hmn : mn ≤ s) (hmx : s ≤ mx) :
    clampedQuotient mn mx a s = rescaleQuotient mn mx a s := by
  obtain ⟨hlow, hhigh⟩ := rescaleQuotient_mem_target hlt a hmn hmx
  have hcast : (a : ℚ) ≤ 127 := by exact_mod_cast ha
  rw [clampedQuotient, max_eq_right (by linarith), min_eq_right (by linarith)]

/-- The least sample becomes the least of the target (R136). -/
theorem toNat_rescale_least (r : NormRound) {a : Nat} (ha : a ≤ 127) {v : Byte} (hv : v.toNat = mn) :
    (rescale r mn mx a v).toNat = 128 - a :=
  toNat_rescale_of_eq hlt (by
    rw [hv, clampedQuotient_eq hlt ha le_rfl hlt.le, rescaleQuotient_least hlt, Nat.cast_sub (by omega)]
    rfl) r

/-- The greatest sample becomes the greatest of the target (R136). -/
theorem toNat_rescale_greatest (r : NormRound) {a : Nat} (ha : a ≤ 127) {v : Byte} (hv : v.toNat = mx) :
    (rescale r mn mx a v).toNat = 128 + a :=
  toNat_rescale_of_eq hlt (by
    rw [hv, clampedQuotient_eq hlt ha hlt.le le_rfl, rescaleQuotient_greatest hlt, Nat.cast_add]
    rfl) r

/-- With amplitude 0 every sample goes to the centre (R135). -/
theorem rescale_zero (r : NormRound) (v : Byte) : rescale r mn mx 0 v = 128#8 := by
  refine BitVec.eq_of_toNat_eq (toNat_rescale_of_eq hlt (k := 128) ?_ r)
  norm_num [clampedQuotient, rescaleQuotient]

/-- The samples of a rescaled buffer have the extremes of the target (R136). -/
theorem Extremes.map_rescale {sb : List Byte} (h : Extremes sb mn mx) (r : NormRound) {a : Nat} (ha : a ≤ 127) :
    Extremes (sb.map (rescale r mn mx a)) (128 - a) (128 + a) := by
  obtain ⟨⟨u, hu, hleast⟩, ⟨v, hv, hgreatest⟩, hall⟩ := h
  have hlow := toNat_rescale_least hlt r ha hleast
  have hhigh := toNat_rescale_greatest hlt r ha hgreatest
  refine ⟨⟨_, List.mem_map_of_mem hu, hlow⟩, ⟨_, List.mem_map_of_mem hv, hhigh⟩, fun w hw => ?_⟩
  obtain ⟨x, hx, rfl⟩ := List.mem_map.mp hw
  obtain ⟨hmn, hmx⟩ := hall x hx
  exact ⟨hlow ▸ toNat_rescale_mono hlt r a (hleast ▸ hmn), hhigh ▸ toNat_rescale_mono hlt r a (hgreatest ▸ hmx)⟩

end

/-- From the target range to the target range the rescaling is the identity (R137). -/
theorem rescale_target (r : NormRound) {a : Nat} (hpos : 1 ≤ a) (ha : a ≤ 127) {v : Byte} (hmn : 128 - a ≤ v.toNat)
    (hmx : v.toNat ≤ 128 + a) : rescale r (128 - a) (128 + a) a v = v := by
  have hlt : 128 - a < 128 + a := by omega
  refine BitVec.eq_of_toNat_eq (toNat_rescale_of_eq hlt ?_ r)
  rw [clampedQuotient_eq hlt ha hmn hmx, rescaleQuotient, Nat.cast_sub (by omega)]
  have hne : (a : ℚ) ≠ 0 := by exact_mod_cast (by omega : a ≠ 0)
  have hrange : ((128 + a : ℕ) : ℚ) - ((128 : ℕ) - a) = 2 * a := by push_cast; ring
  rw [hrange]
  push_cast
  field_simp
  ring

theorem leastSample_eq_iff (x : Byte) (xs : List Byte) (m : Nat) :
    leastSample x xs = m ↔ (∃ v ∈ x :: xs, v.toNat = m) ∧ ∀ v ∈ x :: xs, m ≤ v.toNat := by
  have hmin : ((x :: xs).map BitVec.toNat).min? = some (leastSample x xs) := by
    rw [List.map_cons, List.min?_cons', List.foldl_map, leastSample]
  rw [← Option.some_inj, ← hmin, List.min?_eq_some_iff, List.mem_map, List.forall_mem_map]

theorem greatestSample_eq_iff (x : Byte) (xs : List Byte) (m : Nat) :
    greatestSample x xs = m ↔ (∃ v ∈ x :: xs, v.toNat = m) ∧ ∀ v ∈ x :: xs, v.toNat ≤ m := by
  have hmax : ((x :: xs).map BitVec.toNat).max? = some (greatestSample x xs) := by
    rw [List.map_cons, List.max?_cons', List.foldl_map, greatestSample]
  rw [← Option.some_inj, ← hmax, List.max?_eq_some_iff, List.mem_map, List.forall_mem_map]

/-- What the first pass of `NORM` finds are the extremes of the buffer (R135). -/
theorem extremes_cons_iff (x : Byte) (xs : List Byte) (mn mx : Nat) :
    Extremes (x :: xs) mn mx ↔ leastSample x xs = mn ∧ greatestSample x xs = mx := by
  rw [leastSample_eq_iff, greatestSample_eq_iff, Extremes]
  constructor
  · rintro ⟨hmn, hmx, hall⟩
    exact ⟨⟨hmn, fun v hv => (hall v hv).1⟩, hmx, fun v hv => (hall v hv).2⟩
  · rintro ⟨⟨hmn, hlow⟩, hmx, hhigh⟩
    exact ⟨hmn, hmx, fun v hv => ⟨hlow v hv, hhigh v hv⟩⟩

theorem Extremes.le {sb : List Byte} {mn mx : Nat} (h : Extremes sb mn mx) : mn ≤ mx := by
  obtain ⟨-, ⟨v, hv, rfl⟩, hall⟩ := h
  exact (hall v hv).1

/-- What becomes of a buffer with given extremes (R132, R135). -/
theorem Extremes.normalizeSamples_eq {sb : List Byte} {mn mx : Nat} (h : Extremes sb mn mx) (r : NormRound) (a : Nat) :
    normalizeSamples r a sb = if mx = mn then sb else sb.map (rescale r mn mx a) := by
  cases sb with
  | nil => simp [Extremes] at h
  | cons x xs =>
    obtain ⟨rfl, rfl⟩ := (extremes_cons_iff ..).mp h
    simp only [normalizeSamples, nearlyFlat_iff h.le]

theorem Extremes.normalizeSamples_flat {sb : List Byte} {m : Nat} (h : Extremes sb m m) (r : NormRound) (a : Nat) :
    normalizeSamples r a sb = sb := by
  rw [h.normalizeSamples_eq, if_pos rfl]

theorem Extremes.normalizeSamples_of_lt {sb : List Byte} {mn mx : Nat} (h : Extremes sb mn mx) (hlt : mn < mx)
    (r : NormRound) (a : Nat) : normalizeSamples r a sb = sb.map (rescale r mn mx a) := by
  rw [h.normalizeSamples_eq, if_neg hlt.ne']

/-- A buffer at the target is left as it is: at amplitude 0 because it is flat, else because no sample moves (R137). -/
theorem Extremes.normalizeSamples_target {sb : List Byte} {a : Nat} (h : Extremes sb (128 - a) (128 + a)) (ha : a ≤ 127)
    (r : NormRound) : normalizeSamples r a sb = sb := by
  obtain rfl | hpos := Nat.eq_zero_or_pos a
  · exact h.normalizeSamples_flat r 0
  · rw [h.normalizeSamples_of_lt (by omega)]
    obtain ⟨-, -, hall⟩ := h
    have hfixed : ∀ v ∈ sb, rescale r (128 - a) (128 + a) a v = id v := fun v hv =>
      rescale_target r hpos ha (hall v hv).1 (hall v hv).2
    rw [List.map_congr_left hfixed, List.map_id]

/-- A buffer is empty, or flat, or has two extremes apart (R132). -/
theorem empty_or_flat_or_extremes (sb : List Byte) :
    sb = [] ∨ (∃ m, Extremes sb m m) ∨ ∃ mn mx, Extremes sb mn mx ∧ mn < mx := by
  cases sb with
  | nil => exact .inl rfl
  | cons x xs =>
    have h := (extremes_cons_iff x xs _ _).mpr ⟨rfl, rfl⟩
    obtain heq | hlt := h.le.eq_or_lt
    · exact .inr (.inl ⟨_, heq ▸ h⟩)
    · exact .inr (.inr ⟨_, _, h, hlt⟩)

/-- The same `NORM` twice is the same `NORM` once (R137). -/
theorem normalizeSamples_idempotent (r : NormRound) {a : Nat} (ha : a ≤ 127) (sb : List Byte) :
    normalizeSamples r a (normalizeSamples r a sb) = normalizeSamples r a sb := by
  obtain rfl | ⟨m, h⟩ | ⟨mn, mx, h, hlt⟩ := empty_or_flat_or_extremes sb
  · rfl
  · rw [h.normalizeSamples_flat, h.normalizeSamples_flat]
  · rw [h.normalizeSamples_of_lt hlt]
    exact (h.map_rescale hlt r ha).normalizeSamples_target ha r

/-- With no error held `NORM` rewrites the samples and nothing else (R135). -/
theorem exec_norm_run {s : State} (he : s.err = 0#3) (a : Byte) :
    exec (.norm a) s = .next { s with sb := normalizeSamples s.params.normRound a.toNat s.sb } :=
  (exec_norm a s).trans (State.unlessError_run he _)

/-- If the samples stay what they are, `NORM` changes nothing. -/
theorem exec_norm_of_fixed {s : State} {a : Byte}
    (h : normalizeSamples s.params.normRound a.toNat s.sb = s.sb) : exec (.norm a) s = .next s := by
  by_cases he : s.err = 0#3
  · rw [exec_norm_run he, h]
  · exact exec_of_error he nofun

end Sys2Proof.Machine
end

section
/-! PROOFS. The obligations on the normalizer (45_normalizer.md). -/

namespace Sys2Proof.Machine

/-- Settles O56: the three kinds of buffer, amplitude 0, the sticky refusal, and the reserved bits of the operand. -/
theorem normResult : Obligations.NormResult := by
  refine ⟨fun a s he => ⟨fun hnil => ?_, fun m h => ?_, fun mn mx h hlt => ?_⟩, fun r mn mx v hlt _ => rescale_zero hlt r v,
    fun a s he => exec_of_error he nofun, fun w hop harg => ?_⟩
  · exact exec_norm_of_fixed (by rw [hnil]; rfl)
  · exact exec_norm_of_fixed (h.normalizeSamples_flat _ _)
  · rw [exec_norm_run he, h.normalizeSamples_of_lt hlt]
  · refine decode_illArg_of_reserved (hop ▸ by decide) ?_
    rw [hop]
    exact mt extractLsb'_eq_zero_of_and_not_byte harg

/-- Settles O57: every clause is about the clamped rational that a rescaled sample rounds. -/
theorem rescaleIsExactRational : Obligations.RescaleIsExactRational := by
  intro mn mx a s q qc hlt _ _ hq hqc
  obtain rfl : q = rescaleQuotient mn mx a s.toNat := hq
  obtain rfl : qc = clampedQuotient mn mx a s.toNat := hqc
  refine ⟨?_, ?_, toNat_rescale hlt .nearest a s, fun r => abs_toNat_rescale_sub_lt_one hlt r a s,
    fun r k hk => toNat_rescale_of_eq hlt hk r, fun hmn hmx => ?_⟩
  · have hne := (cast_sub_cast_pos hlt).ne'
    unfold rescaleQuotient
    field_simp
    ring
  · rw [toNat_rescale hlt, roundingOffset, add_zero]
  · obtain ⟨hlow, hhigh⟩ := rescaleQuotient_mem_target hlt a hmn hmx
    exact ⟨hlow, hhigh, fun ha => clampedQuotient_eq hlt ha hmn hmx⟩

/-- Settles O58: the extremes go to the ends of the target, and the rest stays between them. -/
theorem normReachesTarget : Obligations.NormReachesTarget := by
  refine ⟨fun a s mn mx he ha h hlt => ?_, fun r mn mx a x y hlt hxy => toNat_rescale_mono hlt r a.toNat hxy⟩
  refine ⟨_, exec_norm_run he a, ?_, length_normalizeSamples _ _ _⟩
  rw [h.normalizeSamples_of_lt hlt]
  exact h.map_rescale hlt _ ha

/-- Settles O59: after the first `NORM` the buffer is empty, flat or at the target, and each of these stays. -/
theorem normIsIdempotent : Obligations.NormIsIdempotent := by
  refine ⟨fun a s _ _ ha h => exec_norm_of_fixed (h.normalizeSamples_target ha _), fun a s t ha h => ?_⟩
  by_cases he : s.err = 0#3
  · rw [exec_norm_run he] at h
    cases h
    exact exec_norm_of_fixed (normalizeSamples_idempotent _ ha s.sb)
  · have hsticky : exec (.norm a) s = .next s := exec_of_error he nofun
    rw [hsticky] at h
    cases h
    exact hsticky

end Sys2Proof.Machine
end

section
/-! SUPPORT. What an error leaves: of a command, of a command word, and while one is held (60_exceptions.md R148 to R151). -/

namespace Sys2Proof.Machine

/-- A command or a word that has raised an error is refused as R149 says. -/
theorem exists_onlyErr_of_setErr {s : State} {r : Result} {code : BitVec 3} (h : r = .next (s.setErr code)) :
    ∃ t, r = .next t ∧ OnlyErr s t code :=
  ⟨s.setErr code, h, onlyErr_setErr s code⟩

/-! ### Commands -/

theorem State.err_congr {s t : State} (h : t.status = s.status) : t.err = s.err := by simp only [State.err, h]

/-- No part of an `ENCODE` writes `STATUS.ERR`. -/
theorem keptByParts_err : KeptByParts fun s t => t.err = s.err where
  refl _ := rfl
  trans _ _ _ hst htu := htu.trans hst
  emit := State.emit_err
  goto := State.goto_err
  setBlk := State.setBlk_err
  setDone := State.setDone_err
  buildRecord := State.buildRecord_err
  storeFrame s t c q _ := s.storeFrame_err t c q
  loadChunk := State.loadChunk_err

@[simp] theorem State.encodeFile_err (s : State) : s.encodeFile.err = s.err := keptByParts_err.encodeFile s

/-- A command that ends with an error it has not begun with has raised it, and done nothing else. -/
theorem Effect.onlyErr {i : Instr} {s t : State} (h : Effect i s t) (hs : s.err = 0#3) (ht : t.err ≠ 0#3) :
    OnlyErr s t t.err := by
  cases h.progress with
  | cleared _ hclear => exact absurd (hclear ▸ s.clear_err) ht
  | encoded _ hfile => exact absurd (hfile ▸ s.encodeFile_err.trans hs) ht
  | raised _ e hraise =>
    rw [hraise, State.setErr_err]
    exact onlyErr_setErr s e.code
  | kept hstatus => exact absurd ((State.err_congr hstatus).trans hs) ht

theorem exec_encode_empty {s : State} (he : s.err = 0#3) (hplen : s.plen = 0#32) :
    exec .encode s = .next (s.setErr 1#3) :=
  exec_of_effect (.encodeEmpty s he hplen)

theorem exec_encode_tooLong {s : State} (he : s.err = 0#3) (hplen : 16776704 < s.plen.toNat) :
    exec .encode s = .next (s.setErr 2#3) :=
  exec_of_effect (.encodeLength s he hplen)

/-! ### Command words -/

/-- Only one word is `RESET`, for no bit of a word is ignored (30_encoding.md R59). -/
theorem decode_reset_iff (w : CmdWord) : decode w = .ok .reset ↔ w = 0x01000000#32 := by
  constructor
  · intro h
    obtain ⟨hencode, -⟩ := encodeOfDecode w .reset h
    exact hencode.symm
  · rintro rfl
    rfl

section
variable {s : State} {w : CmdWord} {rest : List HostMove} (h : s.host = .write 0 w :: rest)
include h

/-- An illegal word raises the error of its verdict, while none is held (R143, R148). -/
theorem step_of_illegalWord {e : DecodeError} (hd : decode w = .error e) :
    step s = .next ((s.withMoves rest).raise (causeOf e)) := by
  rw [step_of_word h, hd]
  rfl

theorem step_of_illegalWord_setErr (he : s.err = 0#3) {e : DecodeError} (hd : decode w = .error e) :
    step s = .next ((s.withMoves rest).setErr (causeOf e).code) := by
  rw [step_of_illegalWord h hd, State.setErr_of_raise]
  simpa using he

/-- While an error is held a word is taken and has no effect, whatever it decodes to, unless it is `RESET` (R150). -/
theorem step_of_word_sticky (he : s.err ≠ 0#3) (hw : w ≠ 0x01000000#32) : step s = .next (s.withMoves rest) := by
  have he' : (s.withMoves rest).err ≠ 0#3 := by simpa using he
  cases hd : decode w with
  | ok i =>
    rw [stepRunsDecodedCommand s w rest i h hd]
    exact exec_of_error he' fun hi => hw ((decode_reset_iff w).mp (hi ▸ hd))
  | error e => rw [step_of_illegalWord h hd, State.raise_eq, if_neg he']

theorem step_of_resetWord (hw : w = 0x01000000#32) : step s = .next (s.withMoves rest).clear :=
  stepRunsDecodedCommand s w rest .reset h ((decode_reset_iff w).mpr hw)

theorem step_of_encodeWord (hw : w = 0x50000000#32) : step s = exec .encode (s.withMoves rest) :=
  stepRunsDecodedCommand s w rest .encode h (by rw [hw]; rfl)

end

end Sys2Proof.Machine
end

section
/-! PROOFS. The obligations on errors and on the idle engine (60_exceptions.md). -/

namespace Sys2Proof.Machine

/-- Settles O6: the sticky refusal comes before the decoder, the decoder's verdicts before the checks of `ENCODE`. -/
theorem refusalPriority : Obligations.RefusalPriority := by
  intro s w rest h
  obtain ⟨hillCmd, hillArg, -⟩ := decoderVerdicts w
  refine ⟨step_of_word_sticky h, fun he hop => ?_, fun he hop harg => ?_, fun he hw hplen => ?_, fun he hw hplen => ?_⟩
  · exact exists_onlyErr_of_setErr (step_of_illegalWord_setErr (e := .illCmd) h he (hillCmd.mpr hop))
  · exact exists_onlyErr_of_setErr (step_of_illegalWord_setErr (e := .illArg) h he (hillArg.mpr ⟨hop, harg⟩))
  · exact exists_onlyErr_of_setErr ((step_of_encodeWord h hw).trans (exec_encode_empty (by simpa using he) hplen))
  · exact exists_onlyErr_of_setErr ((step_of_encodeWord h hw).trans (exec_encode_tooLong (by simpa using he) hplen))

/-- Settles O26: a new error is one that has just been raised; with one held only `RESET` acts, and it leaves none. -/
theorem errorsArePrecise : Obligations.ErrorsArePrecise := by
  refine ⟨fun i s t h => (effect_of_exec h).onlyErr, fun s t w rest hw h => ⟨fun hs ht => ?_, fun hs ht => ?_⟩⟩
  · cases hd : decode w with
    | ok i =>
      rw [stepRunsDecodedCommand s w rest i hw hd] at h
      exact (effect_of_exec h).onlyErr (by simpa using hs) ht
    | error e =>
      rw [step_of_illegalWord_setErr hw hs hd] at h
      cases h
      rw [State.setErr_err]
      exact onlyErr_setErr _ _
  · by_cases hreset : w = 0x01000000#32
    · rw [step_of_resetWord hw hreset] at h
      cases h
      exact absurd (State.clear_err _) ht
    · rw [step_of_word_sticky hw hs hreset] at h
      cases h
      exact s.withMoves_err rest

/-- Settles O27: words but `RESET` are refused; a move of the host that is no word writes its register or byte and does
not reach `STATUS`. -/
theorem stickyError : Obligations.StickyError := by
  refine ⟨fun i s => exec_of_error, fun s rest he => ?_⟩
  have load (space : LoadSpace) {b : Buffer} (hb : b = space.buffer) (a : Nat) (v : Byte)
      (hindex : space = .pm ∨ a < 256) (h : s.host = .load space a v :: rest) :
      ∃ t, step s = .next t ∧ t.readByte b a = v ∧ t.err = s.err := by
    obtain ⟨t, ht, hread, hframe, -⟩ := hostBufferLoad s rest space a v h hindex
    refine ⟨t, ht, ?_, State.err_congr (congrArg State.status hframe :)⟩
    rw [hread, if_pos ⟨rfl, (space.eq_buffer_iff b).mp hb⟩]
  refine ⟨fun w hw h => step_of_word_sticky h he hw, fun h => ?_, fun v h => ?_, fun v h => ?_, fun v h => ?_,
    fun v h => ?_, fun a v => load .pm rfl a v (.inl rfl), fun a v ha => load .name rfl a v (.inr ha),
    fun a v ha => load .pb rfl a v (.inr ha)⟩
  · exact ⟨_, step_of_resetWord h rfl, State.clear_err _, rfl⟩
  all_goals exact ⟨_, step_of_register_write h (by decide), rfl, rfl⟩

/-- Settles O49: both checks come before the file is begun; the longest program that passes them has 65534 chunks. -/
theorem encodeRefusals : Obligations.EncodeRefusals := by
  refine ⟨fun s he hplen => exists_onlyErr_of_setErr (exec_encode_empty he hplen),
    fun s he hplen => exists_onlyErr_of_setErr (exec_encode_tooLong he hplen), fun s he hplen hcap => ?_⟩
  have hblocks : s.blockCount = 65534 := by
    unfold State.blockCount
    omega
  have hnonzero : s.plen ≠ 0#32 := fun hzero => by simp [hzero] at hplen
  refine ⟨hblocks, s.encodeFile, exec_encode_of_unbounded ⟨he, hnonzero, hplen.le⟩ hcap, s.encodeFile_err.trans he, ?_⟩
  rw [encodeFile_blk, hblocks]

/-- Settles O7: there is no word to take and no move to make. -/
theorem idleEngineWaits : Obligations.IdleEngineWaits := by
  intro s h
  have hword : s.nextCommand = none := by rw [State.nextCommand, h]
  rw [step, hword]
  simp only [State.hostTurn, h]

end Sys2Proof.Machine
end
